-- ==== Sys2Proof/Word.lean ====
section
/-! DEFINITION. The word types of spec/00_scope.md R10 (`uN` is an unsigned N-bit value whose `+N`
wraps) and the IPv4 address of spec/20_memory.md R53. -/

namespace Sys2Proof

/-- A byte (R10). -/
abbrev Byte := BitVec 8

/-- `u16` (R10). -/
abbrev U16 := BitVec 16

/-- `u32` (R10). -/
abbrev U32 := BitVec 32

/-- An IPv4 address: "4 raw bytes", `a` at the lowest index, never interpreted as a number
(spec/20_memory.md R53; operand type `ip4` of spec/30_encoding.md R111). -/
structure IP4 where
  a : Byte
  b : Byte
  c : Byte
  d : Byte
deriving DecidableEq, Repr, Inhabited

/-- The address as a byte sequence in index order (R53). -/
def IP4.bytes (ip : IP4) : List Byte := [ip.a, ip.b, ip.c, ip.d]

end Sys2Proof
end

