-- ==== Sys2Proof/Syntax.lean ====
section
/-! DEFINITION. The operand and result types of spec/30_encoding.md R111, the status codes of
R113, and the instructions: one constructor per row of spec/opcode_table.json. -/

namespace Sys2Proof

/-- The status an operation yields (spec/30_encoding.md R113). -/
inductive Status where
  | ok
  | incomplete
  | tooShort
  | badLength
  | outOverflow
  | badEscape
  | tableFull
  | noConn
  | interrupted
  | illegalOp
  | dropped
  | lenRange
deriving DecidableEq, Repr, Inhabited

/-- The code of a status (R113). -/
def Status.code : Status → Nat
  | .ok => 0
  | .incomplete => 1
  | .tooShort => 2
  | .badLength => 3
  | .outOverflow => 4
  | .badEscape => 5
  | .tableFull => 6
  | .noConn => 7
  | .interrupted => 8
  | .illegalOp => 9
  | .dropped => 10
  | .lenRange => 11

/-- `slice`: a pair (offset, length) into the input buffer (R111, spec/20_memory.md R71). -/
structure Slice where
  offset : Nat
  length : Nat
deriving DecidableEq, Repr, Inhabited

/-- `hdr_ip`: the fields IP_PARSE returns (spec/42_ipv4.md R167). -/
structure IpHdr where
  version : BitVec 4
  ihl : BitVec 4
  tos : Byte
  totalLength : U16
  identification : U16
  flagsFrag : U16
  ttl : Byte
  protocol : Byte
  checksum : U16
  src : IP4
  dst : IP4
deriving DecidableEq, Repr, Inhabited

/-- `hdr_icmp`: the fields ICMP_PARSE returns (spec/43_icmp.md R183). -/
structure IcmpHdr where
  type : Byte
  code : Byte
  checksum : U16
  identifier : U16
  sequence : U16
deriving DecidableEq, Repr, Inhabited

/-- What UDP_PARSE returns beside the payload slice (spec/44_udp.md R192). -/
structure UdpHdr where
  srcPort : U16
  dstPort : U16
  length : U16
  checksum : U16
deriving DecidableEq, Repr, Inhabited

/-- `hdr_tcp`: the fields TCP_PARSE returns (spec/45_tcp_codec.md R208). -/
structure TcpHdr where
  srcPort : U16
  dstPort : U16
  seq : U32
  ack : U32
  offFlags : U16
  window : U16
  checksum : U16
  urgent : U16
deriving DecidableEq, Repr, Inhabited

/-- The Booleans TCP_FLAGS returns (spec/45_tcp_codec.md R210). -/
structure TcpFlags where
  syn : Bool
  ack : Bool
  fin : Bool
  rst : Bool
deriving DecidableEq, Repr, Inhabited

/-- A segment descriptor: the operands of one TCP_BUILD (spec/46_tcp_fsm.md R241). -/
structure SegDesc where
  srcPort : U16
  dstPort : U16
  seq : U32
  ack : U32
  flags : BitVec 9
  window : U16
  payload : List Byte
  srcIp : IP4
  dstIp : IP4
deriving DecidableEq, Repr, Inhabited

/-- The output buffer an issuer binds to an operation: its capacity OUT_CAP (R111 `cap`) and
whether it overlaps the operation's input buffer (spec/20_memory.md R58: such an operation "is
not defined by this spec and a model should refuse it"). -/
structure OutBuf where
  cap : Nat
  overlaps : Bool
deriving DecidableEq, Repr, Inhabited

/-- The handler operand of RX_POLL: "the function applied to a decoded frame; the default is
DISPATCH" (spec/47_rx_dispatch.md R270). `identity` returns the frame (the handler of vector X2 of
spec/95_test_vectors.md); `host h` is any other handler the host supplies, named by a byte. -/
inductive Handler where
  | dispatch
  | identity
  | host (h : Byte)
deriving DecidableEq, Repr, Inhabited

/-- What DISPATCH reports to the host (spec/47_rx_dispatch.md R291). -/
inductive Event where
  | echoReplyRx (src : IP4) (identifier sequence : U16) (payload : List Byte)
  | udpRx (src dst : IP4) (srcPort dstPort : U16) (payload : List Byte)
  | tcpRx (slot row : Nat) (payload : List Byte)
deriving DecidableEq, Repr, Inhabited

/-- What DISPATCH answers: its status (OK or DROPPED), the status of the step that caused a drop,
and the event (spec/47_rx_dispatch.md R290). -/
structure Verdict where
  status : Status
  cause : Option Status
  event : Option Event
deriving DecidableEq, Repr, Inhabited

/-- What a handler returns to RX_POLL (spec/47_rx_dispatch.md R279). -/
inductive HandlerResult where
  | dispatch (v : Verdict)
  | identity (frame : List Byte)
  | host (bytes : List Byte)
deriving DecidableEq, Repr, Inhabited

/-- The results of an operation other than its status, its count and its output buffer (R16 of
spec/00_scope.md; each constructor lists the results its operations' rules give). -/
inductive Result where
  /-- no operation has completed since reset -/
  | none
  /-- the status, the count and the output buffer are all the operation yields -/
  | counted
  /-- CSUM (R150) and UDP_CSUM (R194) -/
  | checksum (c : U16)
  /-- IP_PARSE (R164) -/
  | ip (hdr : IpHdr) (payload : Slice)
  /-- ICMP_PARSE (R183) -/
  | icmp (hdr : IcmpHdr) (payload : Slice)
  /-- UDP_PARSE (R192) -/
  | udp (hdr : UdpHdr) (payload : Slice)
  /-- TCP_PARSE (R208) -/
  | tcp (hdr : TcpHdr) (payload : Slice)
  /-- TCP_FLAGS (R210) -/
  | flags (f : TcpFlags)
  /-- TCP_SEG_IN (R228) -/
  | segIn (slot row : Nat) (tx : List SegDesc)
  /-- TCP_CLOSE (R243) -/
  | close (tx : List SegDesc)
  /-- DISPATCH and its branches (R290 to R295) -/
  | verdict (v : Verdict)
  /-- RX_POLL (R279) -/
  | handled (r : HandlerResult)
  /-- a wire symbol of an off_flags word is present in the word (R93, R94) -/
  | present (b : Bool)
deriving DecidableEq, Repr, Inhabited

/-- The answer of one key check (spec/47_rx_dispatch.md R276). -/
inductive Key where
  | none
  | cancel
  | other
deriving DecidableEq, Repr, Inhabited

/-- The instructions: one constructor per row of spec/opcode_table.json, with the operands the
row's rule gives it, in the rule's order; a record operand may stand as its fields (log 1). -/
inductive Instr where
  -- the operations (spec/30_encoding.md R110)
  | slipEnc (input : List Byte) (ob : OutBuf)
  | slipDec (input : List Byte) (ob : OutBuf)
  | csum (input : List Byte)
  | ipBuild (src dst : IP4) (protocol : Byte) (payload : List Byte) (ob : OutBuf)
  | ipParse (input : List Byte)
  | icmpBuild (type : Byte) (identifier sequence : U16) (payload : List Byte) (ob : OutBuf)
  | icmpParse (input : List Byte)
  | udpBuild (srcIp dstIp : IP4) (srcPort dstPort : U16) (payload : List Byte) (ob : OutBuf)
  | udpParse (input : List Byte)
  | udpCsum (srcIp dstIp : IP4) (dgram : List Byte)
  | tcpBuild (srcPort dstPort : U16) (seq ack : U32) (flags : BitVec 9) (window : U16)
      (payload : List Byte) (srcIp dstIp : IP4) (ob : OutBuf)
  | tcpParse (input : List Byte)
  | tcpFlags (offFlags : U16)
  | tcpSegIn (sip dip : IP4) (hdr : TcpHdr) (plen : Nat) (appData : List Byte)
  | tcpClose (slot : Nat)
  | rxPoll (handler : Handler)
  | txFrame (input : List Byte)
  -- the reserved codes (R112)
  | reserved11
  | reserved12
  | reserved13
  | reserved14
  | reserved15
  | reserved16
  | reserved17
  | reserved18
  | reserved19
  | reserved1A
  | reserved1B
  | reserved1C
  | reserved1D
  | reserved1E
  | reserved1F
  -- the pseudo-operations (R116); ECHO_REPLY(m, ip) as the fields its expansion uses (log 1)
  | echoReply (src dst : IP4) (identifier sequence : U16) (payload : List Byte)
  | sendSeg (d : SegDesc)
  | dispatch (frame : List Byte)
  -- the symbols of a SLIP line (R81, R84); the last three are met after an ESC
  | slipEnd
  | slipEsc
  | slipEscEnd
  | slipEscEsc
  | slipInvalid (b : Byte)
  -- byte 9 of an IPv4 header (R96): the packet's addresses and its payload bytes
  | ipProtoIcmp (src dst : IP4) (payload : List Byte)
  | ipProtoTcp (src dst : IP4) (payload : List Byte)
  | ipProtoUdp (src dst : IP4) (payload : List Byte)
  -- byte 0 of an ICMP message (R90)
  | icmpEchoRequest (src dst : IP4) (identifier sequence : U16) (payload : List Byte)
  | icmpEchoReply (src : IP4) (identifier sequence : U16) (payload : List Byte)
  -- the off_flags word of a TCP header (R93, R94)
  | tcpFin (offFlags : U16)
  | tcpSyn (offFlags : U16)
  | tcpRst (offFlags : U16)
  | tcpPsh (offFlags : U16)
  | tcpAck (offFlags : U16)
  | tcpDataOffset5 (offFlags : U16)
deriving DecidableEq, Repr

end Sys2Proof
end

