-- ==== Sys2Proof/Config.lean ====
section
/-! DEFINITION. The configuration constants of spec/00_scope.md R7 and R26 as a record (a machine's
state carries one, and no operation writes it), the fixed constants, and the free values: constants
with no body, applied to a stamp the step advances, so that nothing can be proved of the value a
point the spec leaves open takes (spec/93_implementation_defined.md, "any value"). -/

namespace Sys2Proof.Config

/-- `RX_ERR_POLICY`: what RX_POLL does after a decode error (spec/47_rx_dispatch.md R278). -/
inductive ErrPolicy where
  | hold
  | flush
deriving DecidableEq, Repr

/-- The hardwired configuration constants (spec/00_scope.md R7, spec/10_state.md R26). `LOCAL_IP`
and `PORT_MAP` are used by no rule and are left out; `segCap` and `pktCap` are the OUT_CAP of the
message or segment buffer and of the packet buffer inside the pseudo-operations, which the spec
leaves to the issuer (spec/70_reset_and_hazards.md R346, R358; log 5). -/
structure Params where
  tableCap : Nat
  ipId : U16
  isn : U32
  tcpWindow : U16
  accCap : Nat
  frameCap : Nat
  txCap : Nat
  autoClose : Bool
  rxErrPolicy : ErrPolicy
  ipCheckTotalLength : Bool
  segCap : Nat
  pktCap : Nat
deriving DecidableEq, Repr

/-- The defaults of R7. ACC_CAP, FRAME_CAP and TX_CAP have none there: the values are those of
program P1 (spec/95_test_vectors.md); `segCap` and `pktCap` never bind before LEN_RANGE does
(DESIGN CHOICE, log 4 and 5). -/
def default : Params where
  tableCap := 4
  ipId := 0x0000#16
  isn := 0x00001000#32
  tcpWindow := 0x0400#16
  accCap := 128
  frameCap := 64
  txCap := 128
  autoClose := true
  rxErrPolicy := .hold
  ipCheckTotalLength := false
  segCap := 65535
  pktCap := 65535

/-- The bounds R7 puts on the open capacities. -/
def Params.wf (p : Params) : Bool :=
  decide (1 ≤ p.tableCap) && decide (1 ≤ p.accCap) && decide (1 ≤ p.frameCap) &&
    decide (2 ≤ p.txCap)

/-- `IP_TTL` (R7). -/
def ipTtl : Byte := 64#8

/-- `IP_TOS` (R7, decision D10). -/
def ipTos : Byte := 0x00#8

/-- `IP_FLAGS_FRAG`: Don't-Fragment set, no fragment offset (R7, spec/30_encoding.md R87). -/
def ipFlagsFrag : U16 := 0x4000#16

/-- `count` after a status other than OK is undefined (spec/00_scope.md R15; log 7). -/
opaque freeCount : Nat → Nat

/-- Every other result after a failing status is any value
(spec/93_implementation_defined.md V2; log 7). -/
opaque freeResult : Nat → Result

/-- The `slot` result of a TCP_SEG_IN that ends TABLE_FULL or NO_CONN (V2; log 8). -/
opaque freeSlot : Nat → Nat

/-- The `row` result of a TCP_SEG_IN that ends TABLE_FULL or NO_CONN (V2; log 8). -/
opaque freeRow : Nat → Nat

/-- A buffer byte whose content is unspecified (spec/20_memory.md R56, V3), by the stamp and the
byte's index (log 6). -/
opaque freeByte : Nat → Nat → Byte

/-- The answer of a key check the input list does not give (spec/47_rx_dispatch.md R276; log 16). -/
opaque freeKey : Nat → Key

/-- The answer of `ready()` the input list does not give (spec/47_rx_dispatch.md R275; log 16). -/
opaque freeReady : Nat → Bool

/-- The inbound byte `read()` returns when the input list holds none (R275; log 16). -/
opaque lineByte : Nat → Byte

/-- APP: the host's function from an inbound TCP segment (addresses, header, payload) to its reply
data, "a free input of the model" (spec/47_rx_dispatch.md R291; log 18). -/
opaque app : IP4 → IP4 → TcpHdr → List Byte → List Byte

/-- What host handler `h` returns for a frame (spec/47_rx_dispatch.md R270; log 17). -/
opaque hostResult : Byte → List Byte → Nat → List Byte

/-- The command packets host handler `h` issues for a frame (spec/60_exceptions.md R323: RX_POLL's
own handler may transmit; log 17). -/
opaque hostCommands : Byte → List Byte → Nat → List (List Byte)

end Sys2Proof.Config
end

