-- ==== Sys2Proof/Machine/Operands.lean ====
section
/-! DEFINITION. The operand forms: the big-endian field primitives of spec/00_scope.md R12 and
spec/20_memory.md R69, the computed offsets of spec/30_encoding.md R97, and slices (R71). There is
one addressing mode (header base plus fixed offset) and no sign extension (R69). -/

namespace Sys2Proof.Machine

/-- `BE16(v)` (R12): the most significant byte at the lower index (R52). -/
def be16 (v : U16) : List Byte := [v.extractLsb' 8 8, v.extractLsb' 0 8]

/-- `BE32(v)` (R12). -/
def be32 (v : U32) : List Byte :=
  [v.extractLsb' 24 8, v.extractLsb' 16 8, v.extractLsb' 8 8, v.extractLsb' 0 8]

/-- The byte `b[i]` (R10). The rule requires `i < len(b)`, which every caller has tested first
(R70); past the end it is 0, a value no operation meets (log 29). -/
def byteAt (b : List Byte) (i : Nat) : Byte := b.getD i 0#8

/-- `GetBE16(b, i)` (R12). -/
def getBE16 (b : List Byte) (i : Nat) : U16 := byteAt b i ++ byteAt b (i + 1)

/-- `GetBE32(b, i)` (R12). -/
def getBE32 (b : List Byte) (i : Nat) : U32 := getBE16 b i ++ getBE16 b (i + 2)

/-- The four bytes of an address at `b[i .. i+4)` (R53). -/
def getIP4 (b : List Byte) (i : Nat) : IP4 :=
  { a := byteAt b i, b := byteAt b (i + 1), c := byteAt b (i + 2), d := byteAt b (i + 3) }

/-- The bytes a slice names: `in[offset .. offset+length)` (R71). -/
def sliceBytes (input : List Byte) (sl : Slice) : List Byte :=
  (input.drop sl.offset).take sl.length

/-- The computed length fields of R98 are 16-bit: a length that fits. -/
def fits16 (n : Nat) : Bool := decide (n ≤ 65535)

/-- A length as the 16-bit field that holds it (R98). -/
def len16 (n : Nat) : U16 := BitVec.ofNat 16 n

/-- The IPv4 header length in bytes, `(in[0] & 0x0F) * 4` (R97). -/
def ipHeaderLen (input : List Byte) : Nat := ((byteAt input 0).extractLsb' 0 4).toNat * 4

/-- The TCP header length in bytes, `(in[12] >> 4) * 4` (R97). -/
def tcpHeaderLen (input : List Byte) : Nat := ((byteAt input 12).extractLsb' 4 4).toNat * 4

end Sys2Proof.Machine
end

