-- ==== Sys2Proof/WellFormed.lean ====
section
/-! DEFINITION. Which instructions the command port can carry (assumption log 1 and 28): the
natural-number operands and the lengths of byte sequences have 32 bits there, a host handler's
number is not one of the two fixed handlers' codes, and SLIP.INVALID is a byte that is neither
ESC_END nor ESC_ESC (spec/30_encoding.md R84: "any other `b`"). The meanings hold for every
operand, well-formed or not. -/

namespace Sys2Proof

/-- A natural number the port's 32-bit operand words can carry. -/
def natFits (n : Nat) : Bool := decide (n < 2 ^ 32)

/-- A byte sequence whose length the port can carry. -/
def bytesFit (bs : List Byte) : Bool := natFits bs.length

/-- A handler whose code names it: 0 and 1 are DISPATCH and the identity. -/
def Handler.wf : Handler → Bool
  | .dispatch => true
  | .identity => true
  | .host h => decide (2 ≤ h.toNat)

/-- SLIP.INVALID stands for "any other value" after an ESC (R84, R137). -/
def invalidAfterEsc (b : Byte) : Bool := !(b == 0xDC#8) && !(b == 0xDD#8)

/-- The instructions the port can carry. -/
def Instr.wf : Instr → Bool
  | .slipEnc input ob => bytesFit input && natFits ob.cap
  | .slipDec input ob => bytesFit input && natFits ob.cap
  | .csum input => bytesFit input
  | .ipBuild _ _ _ payload ob => bytesFit payload && natFits ob.cap
  | .ipParse input => bytesFit input
  | .icmpBuild _ _ _ payload ob => bytesFit payload && natFits ob.cap
  | .icmpParse input => bytesFit input
  | .udpBuild _ _ _ _ payload ob => bytesFit payload && natFits ob.cap
  | .udpParse input => bytesFit input
  | .udpCsum _ _ dgram => bytesFit dgram
  | .tcpBuild _ _ _ _ _ _ payload _ _ ob => bytesFit payload && natFits ob.cap
  | .tcpParse input => bytesFit input
  | .tcpFlags _ => true
  | .tcpSegIn _ _ _ plen appData => natFits plen && bytesFit appData
  | .tcpClose slot => natFits slot
  | .rxPoll handler => handler.wf
  | .txFrame input => bytesFit input
  | .reserved11 => true
  | .reserved12 => true
  | .reserved13 => true
  | .reserved14 => true
  | .reserved15 => true
  | .reserved16 => true
  | .reserved17 => true
  | .reserved18 => true
  | .reserved19 => true
  | .reserved1A => true
  | .reserved1B => true
  | .reserved1C => true
  | .reserved1D => true
  | .reserved1E => true
  | .reserved1F => true
  | .echoReply _ _ _ _ payload => bytesFit payload
  | .sendSeg d => bytesFit d.payload
  | .dispatch frame => bytesFit frame
  | .slipEnd => true
  | .slipEsc => true
  | .slipEscEnd => true
  | .slipEscEsc => true
  | .slipInvalid b => invalidAfterEsc b
  | .ipProtoIcmp _ _ payload => bytesFit payload
  | .ipProtoTcp _ _ payload => bytesFit payload
  | .ipProtoUdp _ _ payload => bytesFit payload
  | .icmpEchoRequest _ _ _ _ payload => bytesFit payload
  | .icmpEchoReply _ _ _ payload => bytesFit payload
  | .tcpFin _ => true
  | .tcpSyn _ => true
  | .tcpRst _ => true
  | .tcpPsh _ => true
  | .tcpAck _ => true
  | .tcpDataOffset5 _ => true

end Sys2Proof
end

