-- ==== Sys2Proof/Decode.lean ====
section
/-! DEFINITION. The decoder of the command port and, after it, the encoder.

The spec gives each operation its 5-bit select code `op[4:0]` (spec/30_encoding.md R110, R112) and
each wire symbol its byte or bits (R81, R90, R93, R94, R96), and leaves open how operands are
presented (`PORT_MAP`, spec/20_memory.md R59). The layout here is the model's (DESIGN CHOICE,
assumption log 1 and 3): a command packet is the select byte, then the operands in the order of the
operation's rule (where the operands are records, as in ECHO_REPLY(m, ip), the fields and their order
are the model's, log 1); numbers are big-endian in their width (naturals in 32 bits), a byte sequence is
its length in 32 bits and then its bytes, an output buffer is its capacity and a byte that says
whether it overlaps the input. Bytes of a packet after the last operand are padding. -/

namespace Sys2Proof

/-- Why a packet is no command. -/
inductive DecodeError where
  /-- the packet has no byte -/
  | empty
  /-- the select byte names no operation, pseudo-operation or symbol -/
  | noSuchSelect (b : Byte)
  /-- the packet ends inside an operand -/
  | truncated
  /-- a `flags9` operand has a bit above bit 8 set (R111) -/
  | flagsRange (w : U16)
  /-- the overlap byte of an output buffer is neither 0 nor 1 -/
  | badPlacement (b : Byte)
  /-- SLIP.INVALID carries ESC_END or ESC_ESC, which are valid after an ESC (R84) -/
  | validAfterEsc (b : Byte)
deriving DecidableEq, Repr

/-- What a reader of operand bytes answers; it pairs the operand with the bytes after it. -/
abbrev Read := Except DecodeError

/-- Reads a `u8` operand. -/
def readU8 : List Byte → Read (Byte × List Byte)
  | b :: r => .ok (b, r)
  | [] => .error .truncated

/-- Reads a `u16` or `port` operand, big-endian. -/
def readU16 : List Byte → Read (U16 × List Byte)
  | a :: b :: r => .ok (a ++ b, r)
  | _ => .error .truncated

/-- Reads a `u32` operand, big-endian. -/
def readU32 : List Byte → Read (U32 × List Byte)
  | a :: b :: c :: d :: r => .ok ((a ++ b) ++ (c ++ d), r)
  | _ => .error .truncated

/-- Reads an `ip4` operand. -/
def readIP4 : List Byte → Read (IP4 × List Byte)
  | a :: b :: c :: d :: r => .ok ({ a := a, b := b, c := c, d := d }, r)
  | _ => .error .truncated

/-- Reads a natural-number operand of 32 bits. -/
def readNat (bs : List Byte) : Read (Nat × List Byte) := do
  let (v, r) ← readU32 bs
  .ok (v.toNat, r)

/-- Reads a `bytes` operand: its length, then its bytes. -/
def readBytes (bs : List Byte) : Read (List Byte × List Byte) := do
  let (n, r) ← readNat bs
  if r.length < n then .error .truncated else .ok (r.take n, r.drop n)

/-- Reads a `flags9` operand (R111). -/
def readFlags9 (bs : List Byte) : Read (BitVec 9 × List Byte) := do
  let (w, r) ← readU16 bs
  if w.toNat < 512 then .ok (w.setWidth 9, r) else .error (.flagsRange w)

/-- Reads the output buffer of a building operation. -/
def readOutBuf (bs : List Byte) : Read (OutBuf × List Byte) := do
  let (n, r) ← readNat bs
  let (p, r) ← readU8 r
  if p = 0x00#8 then .ok ({ cap := n, overlaps := false }, r)
  else if p = 0x01#8 then .ok ({ cap := n, overlaps := true }, r)
  else .error (.badPlacement p)

/-- Reads the handler operand of RX_POLL: 0 is DISPATCH, 1 the identity, any other byte a host
handler. -/
def readHandler (bs : List Byte) : Read (Handler × List Byte) := do
  let (h, r) ← readU8 bs
  if h = 0x00#8 then .ok (.dispatch, r)
  else if h = 0x01#8 then .ok (.identity, r)
  else .ok (.host h, r)

/-- Reads a `hdr_tcp` operand, its fields in the order of the wire header of spec/30_encoding.md R92
(DESIGN CHOICE, log 1: R111 gives the record no order). -/
def readTcpHdr (bs : List Byte) : Read (TcpHdr × List Byte) := do
  let (srcPort, r) ← readU16 bs
  let (dstPort, r) ← readU16 r
  let (seq, r) ← readU32 r
  let (ack, r) ← readU32 r
  let (offFlags, r) ← readU16 r
  let (window, r) ← readU16 r
  let (checksum, r) ← readU16 r
  let (urgent, r) ← readU16 r
  .ok ({ srcPort, dstPort, seq, ack, offFlags, window, checksum, urgent }, r)

/-- Reads a segment descriptor, in TCP_BUILD's operand order (R205). -/
def readSegDesc (bs : List Byte) : Read (SegDesc × List Byte) := do
  let (srcPort, r) ← readU16 bs
  let (dstPort, r) ← readU16 r
  let (seq, r) ← readU32 r
  let (ack, r) ← readU32 r
  let (flags, r) ← readFlags9 r
  let (window, r) ← readU16 r
  let (payload, r) ← readBytes r
  let (srcIp, r) ← readIP4 r
  let (dstIp, r) ← readIP4 r
  .ok ({ srcPort, dstPort, seq, ack, flags, window, payload, srcIp, dstIp }, r)

/-- Reads the byte of SLIP.INVALID. -/
def readInvalid (bs : List Byte) : Read (Byte × List Byte) := do
  let (b, r) ← readU8 bs
  if invalidAfterEsc b then .ok (b, r) else .error (.validAfterEsc b)

/-- The operands of an operation with an input buffer and an output buffer. -/
def readInOut (mk : List Byte → OutBuf → Instr) (bs : List Byte) : Read (Instr × List Byte) := do
  let (input, r) ← readBytes bs
  let (ob, r) ← readOutBuf r
  .ok (mk input ob, r)

/-- The operand of an operation with an input buffer only. -/
def readIn (mk : List Byte → Instr) (bs : List Byte) : Read (Instr × List Byte) := do
  let (input, r) ← readBytes bs
  .ok (mk input, r)

/-- The operands of UDP_CSUM, in the order of its rule (spec/44_udp.md R194), and of a dispatcher branch:
the packet's addresses and its payload (DESIGN CHOICE, log 13). -/
def readBranch (mk : IP4 → IP4 → List Byte → Instr) (bs : List Byte) :
    Read (Instr × List Byte) := do
  let (src, r) ← readIP4 bs
  let (dst, r) ← readIP4 r
  let (payload, r) ← readBytes r
  .ok (mk src dst payload, r)

/-- The operands of an echo request's answer. R116 writes ECHO_REPLY(m, ip); the port carries the fields
its expansion uses and no others, ip's source and destination first and then m's identifier, sequence and
payload (DESIGN CHOICE, log 1; the row ICMP.ECHO_REQUEST: log 13). -/
def readEcho (mk : IP4 → IP4 → U16 → U16 → List Byte → Instr) (bs : List Byte) :
    Read (Instr × List Byte) := do
  let (src, r) ← readIP4 bs
  let (dst, r) ← readIP4 r
  let (identifier, r) ← readU16 r
  let (sequence, r) ← readU16 r
  let (payload, r) ← readBytes r
  .ok (mk src dst identifier sequence payload, r)

/-- The operand of a symbol of the off_flags word. -/
def readWord (mk : U16 → Instr) (bs : List Byte) : Read (Instr × List Byte) := do
  let (w, r) ← readU16 bs
  .ok (mk w, r)

/-- The operands of IP_BUILD (R160). -/
def readIpBuild (bs : List Byte) : Read (Instr × List Byte) := do
  let (src, r) ← readIP4 bs
  let (dst, r) ← readIP4 r
  let (protocol, r) ← readU8 r
  let (payload, r) ← readBytes r
  let (ob, r) ← readOutBuf r
  .ok (.ipBuild src dst protocol payload ob, r)

/-- The operands of ICMP_BUILD (R180). -/
def readIcmpBuild (bs : List Byte) : Read (Instr × List Byte) := do
  let (type, r) ← readU8 bs
  let (identifier, r) ← readU16 r
  let (sequence, r) ← readU16 r
  let (payload, r) ← readBytes r
  let (ob, r) ← readOutBuf r
  .ok (.icmpBuild type identifier sequence payload ob, r)

/-- The operands of UDP_BUILD (R190). -/
def readUdpBuild (bs : List Byte) : Read (Instr × List Byte) := do
  let (srcIp, r) ← readIP4 bs
  let (dstIp, r) ← readIP4 r
  let (srcPort, r) ← readU16 r
  let (dstPort, r) ← readU16 r
  let (payload, r) ← readBytes r
  let (ob, r) ← readOutBuf r
  .ok (.udpBuild srcIp dstIp srcPort dstPort payload ob, r)

/-- The operands of TCP_BUILD (R205). -/
def readTcpBuild (bs : List Byte) : Read (Instr × List Byte) := do
  let (d, r) ← readSegDesc bs
  let (ob, r) ← readOutBuf r
  .ok (.tcpBuild d.srcPort d.dstPort d.seq d.ack d.flags d.window d.payload d.srcIp d.dstIp ob, r)

/-- The operands of TCP_SEG_IN (R228). -/
def readTcpSegIn (bs : List Byte) : Read (Instr × List Byte) := do
  let (sip, r) ← readIP4 bs
  let (dip, r) ← readIP4 r
  let (hdr, r) ← readTcpHdr r
  let (plen, r) ← readNat r
  let (appData, r) ← readBytes r
  .ok (.tcpSegIn sip dip hdr plen appData, r)

/-- The operands that follow a select byte. 0x00 to 0x1F are the codes of R110 and R112; the SLIP
bytes stand for themselves (R81); the other select bytes are the model's (log 3). -/
def decodeOperands (sel : Byte) (r : List Byte) : Read (Instr × List Byte) :=
  match sel.toNat with
  | 0x00 => readInOut .slipEnc r
  | 0x01 => readInOut .slipDec r
  | 0x02 => readIn .csum r
  | 0x03 => readIpBuild r
  | 0x04 => readIn .ipParse r
  | 0x05 => readIcmpBuild r
  | 0x06 => readIn .icmpParse r
  | 0x07 => readUdpBuild r
  | 0x08 => readIn .udpParse r
  | 0x09 => readBranch .udpCsum r
  | 0x0A => readTcpBuild r
  | 0x0B => readIn .tcpParse r
  | 0x0C => readWord .tcpFlags r
  | 0x0D => readTcpSegIn r
  | 0x0E => do
    let (slot, r) ← readNat r
    .ok (.tcpClose slot, r)
  | 0x0F => do
    let (h, r) ← readHandler r
    .ok (.rxPoll h, r)
  | 0x10 => readIn .txFrame r
  | 0x11 => .ok (.reserved11, r)
  | 0x12 => .ok (.reserved12, r)
  | 0x13 => .ok (.reserved13, r)
  | 0x14 => .ok (.reserved14, r)
  | 0x15 => .ok (.reserved15, r)
  | 0x16 => .ok (.reserved16, r)
  | 0x17 => .ok (.reserved17, r)
  | 0x18 => .ok (.reserved18, r)
  | 0x19 => .ok (.reserved19, r)
  | 0x1A => .ok (.reserved1A, r)
  | 0x1B => .ok (.reserved1B, r)
  | 0x1C => .ok (.reserved1C, r)
  | 0x1D => .ok (.reserved1D, r)
  | 0x1E => .ok (.reserved1E, r)
  | 0x1F => .ok (.reserved1F, r)
  | 0x20 => readEcho .echoReply r
  | 0x21 => do
    let (d, r) ← readSegDesc r
    .ok (.sendSeg d, r)
  | 0x22 => readIn .dispatch r
  | 0x30 => readBranch .ipProtoIcmp r
  | 0x31 => readBranch .ipProtoTcp r
  | 0x32 => readBranch .ipProtoUdp r
  | 0x38 => readEcho .icmpEchoRequest r
  | 0x39 => do
    let (src, r) ← readIP4 r
    let (identifier, r) ← readU16 r
    let (sequence, r) ← readU16 r
    let (payload, r) ← readBytes r
    .ok (.icmpEchoReply src identifier sequence payload, r)
  | 0x40 => readWord .tcpFin r
  | 0x41 => readWord .tcpSyn r
  | 0x42 => readWord .tcpRst r
  | 0x43 => readWord .tcpPsh r
  | 0x44 => readWord .tcpAck r
  | 0x45 => readWord .tcpDataOffset5 r
  | 0xC0 => .ok (.slipEnd, r)
  | 0xDB => .ok (.slipEsc, r)
  | 0xDC => .ok (.slipEscEnd, r)
  | 0xDD => .ok (.slipEscEsc, r)
  | 0xDE => do
    let (b, r) ← readInvalid r
    .ok (.slipInvalid b, r)
  | _ => .error (.noSuchSelect sel)

/-- The decoder: total on every packet, rejecting by name. It answers the instruction and the bytes
after its last operand. -/
def decode : List Byte → Read (Instr × List Byte)
  | [] => .error .empty
  | sel :: r => decodeOperands sel r

/-! The encoder. -/

/-- A natural-number operand of 32 bits. -/
def putNat (n : Nat) : List Byte := Machine.be32 (BitVec.ofNat 32 n)

/-- A `bytes` operand. -/
def putBytes (bs : List Byte) : List Byte := putNat bs.length ++ bs

/-- A `flags9` operand. -/
def putFlags9 (f : BitVec 9) : List Byte := Machine.be16 (f.setWidth 16)

/-- An output buffer. -/
def putOutBuf (ob : OutBuf) : List Byte :=
  putNat ob.cap ++ [if ob.overlaps then 0x01#8 else 0x00#8]

/-- The handler operand of RX_POLL. -/
def putHandler : Handler → List Byte
  | .dispatch => [0x00#8]
  | .identity => [0x01#8]
  | .host h => [h]

/-- A `hdr_tcp` operand. -/
def putTcpHdr (h : TcpHdr) : List Byte :=
  Machine.be16 h.srcPort ++ Machine.be16 h.dstPort ++ Machine.be32 h.seq ++ Machine.be32 h.ack ++
    Machine.be16 h.offFlags ++ Machine.be16 h.window ++ Machine.be16 h.checksum ++
    Machine.be16 h.urgent

/-- A segment descriptor. -/
def putSegDesc (d : SegDesc) : List Byte :=
  Machine.be16 d.srcPort ++ Machine.be16 d.dstPort ++ Machine.be32 d.seq ++ Machine.be32 d.ack ++
    putFlags9 d.flags ++ Machine.be16 d.window ++ putBytes d.payload ++ d.srcIp.bytes ++
    d.dstIp.bytes

/-- The operands of an echo request's answer, in the order of `readEcho` (log 1). -/
def putEcho (src dst : IP4) (identifier sequence : U16) (payload : List Byte) : List Byte :=
  src.bytes ++ dst.bytes ++ Machine.be16 identifier ++ Machine.be16 sequence ++ putBytes payload

/-- The operands of a dispatcher branch. -/
def putBranch (src dst : IP4) (payload : List Byte) : List Byte :=
  src.bytes ++ dst.bytes ++ putBytes payload

/-- The select byte of an instruction: its code in R110 or R112, the symbol's own byte (R81), or
the model's (log 3). -/
def Instr.select : Instr → Byte
  | .slipEnc .. => 0x00#8
  | .slipDec .. => 0x01#8
  | .csum .. => 0x02#8
  | .ipBuild .. => 0x03#8
  | .ipParse .. => 0x04#8
  | .icmpBuild .. => 0x05#8
  | .icmpParse .. => 0x06#8
  | .udpBuild .. => 0x07#8
  | .udpParse .. => 0x08#8
  | .udpCsum .. => 0x09#8
  | .tcpBuild .. => 0x0A#8
  | .tcpParse .. => 0x0B#8
  | .tcpFlags .. => 0x0C#8
  | .tcpSegIn .. => 0x0D#8
  | .tcpClose .. => 0x0E#8
  | .rxPoll .. => 0x0F#8
  | .txFrame .. => 0x10#8
  | .reserved11 => 0x11#8
  | .reserved12 => 0x12#8
  | .reserved13 => 0x13#8
  | .reserved14 => 0x14#8
  | .reserved15 => 0x15#8
  | .reserved16 => 0x16#8
  | .reserved17 => 0x17#8
  | .reserved18 => 0x18#8
  | .reserved19 => 0x19#8
  | .reserved1A => 0x1A#8
  | .reserved1B => 0x1B#8
  | .reserved1C => 0x1C#8
  | .reserved1D => 0x1D#8
  | .reserved1E => 0x1E#8
  | .reserved1F => 0x1F#8
  | .echoReply .. => 0x20#8
  | .sendSeg .. => 0x21#8
  | .dispatch .. => 0x22#8
  | .slipEnd => 0xC0#8
  | .slipEsc => 0xDB#8
  | .slipEscEnd => 0xDC#8
  | .slipEscEsc => 0xDD#8
  | .slipInvalid .. => 0xDE#8
  | .ipProtoIcmp .. => 0x30#8
  | .ipProtoTcp .. => 0x31#8
  | .ipProtoUdp .. => 0x32#8
  | .icmpEchoRequest .. => 0x38#8
  | .icmpEchoReply .. => 0x39#8
  | .tcpFin .. => 0x40#8
  | .tcpSyn .. => 0x41#8
  | .tcpRst .. => 0x42#8
  | .tcpPsh .. => 0x43#8
  | .tcpAck .. => 0x44#8
  | .tcpDataOffset5 .. => 0x45#8

/-- The operands of an instruction as the port carries them. -/
def Instr.operandBytes : Instr → List Byte
  | .slipEnc input ob => putBytes input ++ putOutBuf ob
  | .slipDec input ob => putBytes input ++ putOutBuf ob
  | .csum input => putBytes input
  | .ipBuild src dst protocol payload ob =>
    src.bytes ++ dst.bytes ++ [protocol] ++ putBytes payload ++ putOutBuf ob
  | .ipParse input => putBytes input
  | .icmpBuild type identifier sequence payload ob =>
    [type] ++ Machine.be16 identifier ++ Machine.be16 sequence ++ putBytes payload ++ putOutBuf ob
  | .icmpParse input => putBytes input
  | .udpBuild srcIp dstIp srcPort dstPort payload ob =>
    srcIp.bytes ++ dstIp.bytes ++ Machine.be16 srcPort ++ Machine.be16 dstPort ++
      putBytes payload ++ putOutBuf ob
  | .udpParse input => putBytes input
  | .udpCsum srcIp dstIp dgram => putBranch srcIp dstIp dgram
  | .tcpBuild srcPort dstPort seq ack flags window payload srcIp dstIp ob =>
    putSegDesc { srcPort, dstPort, seq, ack, flags, window, payload, srcIp, dstIp } ++ putOutBuf ob
  | .tcpParse input => putBytes input
  | .tcpFlags w => Machine.be16 w
  | .tcpSegIn sip dip hdr plen appData =>
    sip.bytes ++ dip.bytes ++ putTcpHdr hdr ++ putNat plen ++ putBytes appData
  | .tcpClose slot => putNat slot
  | .rxPoll handler => putHandler handler
  | .txFrame input => putBytes input
  | .reserved11 => []
  | .reserved12 => []
  | .reserved13 => []
  | .reserved14 => []
  | .reserved15 => []
  | .reserved16 => []
  | .reserved17 => []
  | .reserved18 => []
  | .reserved19 => []
  | .reserved1A => []
  | .reserved1B => []
  | .reserved1C => []
  | .reserved1D => []
  | .reserved1E => []
  | .reserved1F => []
  | .echoReply src dst identifier sequence payload => putEcho src dst identifier sequence payload
  | .sendSeg d => putSegDesc d
  | .dispatch frame => putBytes frame
  | .slipEnd => []
  | .slipEsc => []
  | .slipEscEnd => []
  | .slipEscEsc => []
  | .slipInvalid b => [b]
  | .ipProtoIcmp src dst payload => putBranch src dst payload
  | .ipProtoTcp src dst payload => putBranch src dst payload
  | .ipProtoUdp src dst payload => putBranch src dst payload
  | .icmpEchoRequest src dst identifier sequence payload =>
    putEcho src dst identifier sequence payload
  | .icmpEchoReply src identifier sequence payload =>
    src.bytes ++ Machine.be16 identifier ++ Machine.be16 sequence ++ putBytes payload
  | .tcpFin w => Machine.be16 w
  | .tcpSyn w => Machine.be16 w
  | .tcpRst w => Machine.be16 w
  | .tcpPsh w => Machine.be16 w
  | .tcpAck w => Machine.be16 w
  | .tcpDataOffset5 w => Machine.be16 w

/-- The encoder: the packet of an instruction. -/
def encode (i : Instr) : List Byte := i.select :: i.operandBytes

/-! The opcode table's numbering. -/

/-- The bytes of a number, the least significant first: the table numbers bit 0 as the least
significant bit of the first byte. -/
def littleEndian : Nat → Nat → List Byte
  | 0, _ => []
  | n + 1, w => BitVec.ofNat 8 w :: littleEndian n (w / 256)

/-- The select byte of the first symbol of the table's TCP_OFF_FLAGS rows that an off_flags word
holds (R93, R94): the flag bits from bit 0 up, then the data offset 5; a word that holds none has
no select byte. -/
def offFlagsSelect (w : U16) : Byte :=
  if w &&& 0x0001#16 = 0x0001#16 then 0x40#8
  else if w &&& 0x0002#16 = 0x0002#16 then 0x41#8
  else if w &&& 0x0004#16 = 0x0004#16 then 0x42#8
  else if w &&& 0x0008#16 = 0x0008#16 then 0x43#8
  else if w &&& 0x0010#16 = 0x0010#16 then 0x44#8
  else if w &&& 0xF000#16 = 0x5000#16 then 0x45#8
  else 0xFF#8

/-- The packet of a table word. A one-byte word is the first byte of a packet whose operand bytes
are all 0 (64 of them: more than any fixed-size operand list has); a 16-bit word is a TCP off_flags
word (the only 16-bit rows of the table), presented as the operand of its symbol (log 3). -/
def tablePacket (nbits w : Nat) : List Byte :=
  if (nbits + 7) / 8 = 2 then
    offFlagsSelect (BitVec.ofNat 16 w) :: Machine.be16 (BitVec.ofNat 16 w)
  else
    littleEndian ((nbits + 7) / 8) w ++ List.replicate 64 0x00#8

/-- The instruction the decoder reads from a table word. -/
def decodeTableWord (nbits w : Nat) : Option Instr :=
  match decode (tablePacket nbits w) with
  | .ok (i, _) => some i
  | .error _ => none

end Sys2Proof
end

