-- ==== Sys2Proof/Machine/State.lean ====
section
/-! DEFINITION. The machine's state as plain data: everything spec/10_state.md names, the
environment inputs of spec/00_scope.md R17 as lists the step reads, and the model's own stamp of
free values. -/

namespace Sys2Proof.Machine

/-- The ten connection states, in the source's order (spec/10_state.md R22). -/
inductive ConnState where
  | closed
  | listen
  | synReceived
  | established
  | finWait1
  | finWait2
  | closing
  | timeWait
  | closeWait
  | lastAck
deriving DecidableEq, Repr

/-- The 4-bit label of a connection state (R22). -/
def ConnState.code : ConnState → BitVec 4
  | .closed => 0#4
  | .listen => 1#4
  | .synReceived => 2#4
  | .established => 3#4
  | .finWait1 => 4#4
  | .finWait2 => 5#4
  | .closing => 6#4
  | .timeWait => 7#4
  | .closeWait => 8#4
  | .lastAck => 9#4

/-- A connection record (spec/10_state.md R21). The `valid` bit is the `Option` of the slot that
holds it (decision D27): when it is 0 the other fields are unspecified and no rule reads them. -/
structure Record where
  state : ConnState
  /-- the peer: the source address of the inbound SYN -/
  srcIp : IP4
  /-- the local end: the destination address of the inbound SYN -/
  dstIp : IP4
  srcPort : U16
  dstPort : U16
  /-- next sequence number to send -/
  seq : U32
  /-- next expected acknowledgment number -/
  ack : U32
deriving DecidableEq, Repr

/-- The connection table: slot `k` is `TAB[k]`; `none` is EMPTY (R21). -/
abbrev Table := List (Option Record)

/-- The receive sequencer's control state `rxs` (spec/10_state.md R30); `done` is also its value
while no RX_POLL is in progress (log 21). -/
inductive RxState where
  | pollKey
  | pollRx
  | done
deriving DecidableEq, Repr

/-- A byte buffer of spec/20_memory.md R50: its defined bytes by index, the indices strictly
rising. The content at an index not listed is unspecified (R56): it has no value. -/
abbrev Memory := List Host.Cell

/-- What the issuer has put on the command port. -/
inductive PortItem where
  /-- an operation: its packet (log 1) -/
  | command (packet : List Byte)
  /-- reset, at an operation boundary (spec/70_reset_and_hazards.md R340) -/
  | reset
  /-- the return of a host handler to the RX_POLL that invoked it (log 17) -/
  | handlerReturn (count : Nat) (result : List Byte)
deriving DecidableEq, Repr

/-- The state of the block, of the collaborators it observes (R36) and of its inputs. -/
structure State where
  /-- the configuration constants (R26) -/
  cfg : Config.Params
  /-- the connection table TAB (R21) -/
  tab : Table
  /-- the sequencer's control state (R30) -/
  rxs : RxState
  /-- the handler operand of the RX_POLL in progress (R270) -/
  handler : Handler
  /-- the accumulation buffer ACC (R30) -/
  acc : Memory
  /-- its fill count acc_len (R30) -/
  accLen : Nat
  /-- the decoded-frame buffer FRAME (R30) -/
  frame : Memory
  /-- the SLIP decoder's `esc` (R27) -/
  esc : Bool
  /-- the SLIP decoder's `pos` (R27) -/
  pos : Nat
  /-- the SLIP decoder's input cursor `i` (R27) -/
  cur : Nat
  /-- the SLIP encoder's `pos` (R28) -/
  encPos : Nat
  /-- the SLIP encoder's input cursor `i` (R28) -/
  encCur : Nat
  /-- the checksum pipeline's `sum` (R29) -/
  sum : Nat
  /-- the transmit buffer TXBUF (R31) -/
  txBuf : Memory
  /-- the status of the latest operation (R32) -/
  status : Status
  /-- the count of the latest operation (R32) -/
  count : Nat
  /-- the latest output buffer (spec/20_memory.md R50, R56) -/
  out : Memory
  /-- the other results of the latest operation (R16) -/
  result : Result
  /-- the answers of the coming key checks (R276) -/
  keys : List Key
  /-- the answers of the coming `ready()` calls (R275) -/
  readys : List Bool
  /-- the transport's inbound bytes, not yet read, in order (R66, R68) -/
  rxLine : List Byte
  /-- the outbound byte stream: every byte written, in order (R66, R68) -/
  txLine : List Byte
  /-- the coming answers of APP (R291) -/
  apps : List (List Byte)
  /-- the operations presented and not yet executed, in issue order (R61) -/
  port : List PortItem
  /-- the model's own: the stamp of the next free value (log 7) -/
  fresh : Nat
deriving DecidableEq, Repr

/-- Why the machine stops with a fault: never. "the block has no fault state, no halted state and
no stuck state of its own" (spec/60_exceptions.md R301); every failure is a status (R300). The type
has no value, so no step can fault: there is nothing to be safe or unsafe about. -/
inductive Fault
deriving DecidableEq, Repr

/-- Why a step has no meaning. Every refusal is safe: nothing is claimed of what the block would
do. -/
inductive Refusal where
  /-- an instruction without a meaning: raised by no instruction of this model; safe -/
  | notModelled (mnemonic : String)
  /-- an operation issued while an RX_POLL is in progress, which is outside the block's contract:
  "a model gives such a schedule no meaning (refuses it)" (spec/20_memory.md R62); raised by every
  meaning; safe -/
  | operationInProgress
  /-- an operation whose input and output buffers overlap: "not defined by this spec and a model
  should refuse it" (spec/20_memory.md R58); raised by the operations with an output buffer; safe -/
  | bufferOverlap
  /-- reset while an operation is in progress, excluded by spec/70_reset_and_hazards.md R343; raised
  by `resetBlock`; safe -/
  | resetInProgress
  /-- a packet on the command port that is no command (log 23); raised by the step; safe -/
  | undecodable (e : DecodeError)
deriving DecidableEq, Repr

/-- The machine right after reset with configuration `p`: every slot EMPTY (spec/10_state.md R38),
every buffer's content unspecified (R39), no operation in progress (spec/70_reset_and_hazards.md
R340). The fields the spec gives no reset value hold the values of log 10 and 21. -/
def State.resetWith (p : Config.Params) : State where
  cfg := p
  tab := List.replicate p.tableCap none
  rxs := .done
  handler := .dispatch
  acc := []
  accLen := 0
  frame := []
  esc := false
  pos := 0
  cur := 0
  encPos := 0
  encCur := 0
  sum := 0
  txBuf := []
  status := .ok
  count := 0
  out := []
  result := .none
  keys := []
  readys := []
  rxLine := []
  txLine := []
  apps := []
  port := []
  fresh := 0

/-- The machine right after reset, with the default configuration (log 4). -/
def State.reset : State := State.resetWith Config.default

end Sys2Proof.Machine
end

