-- ==== Sys2Proof/Machine/Ops.lean ====
section
/-! DEFINITION. The named operations over buffers, outputs and inputs: every meaning is built from
these. The block takes no exception: what an operation does when it fails is `State.raise`
(spec/00_scope.md R15, spec/60_exceptions.md R300), and there is nothing to return from (R303). -/

namespace Sys2Proof.Machine

/-- What a meaning answers. -/
abbrev Answer := Host.Outcome State Fault Refusal

/-! Buffers (spec/20_memory.md R50, R56). -/

/-- The defined byte at index `a`; none where the content is unspecified (R56). -/
def Memory.read : Memory → Nat → Option Byte
  | [], _ => none
  | (k, v) :: m, a => if k = a then some v else Memory.read m a

/-- `B[a] <- v` (spec/00_scope.md R13), keeping the indices strictly rising. -/
def Memory.write : Memory → Nat → Byte → Memory
  | [], a, v => [(a, v)]
  | (k, w) :: m, a, v =>
    if a < k then (a, v) :: (k, w) :: m
    else if a = k then (a, v) :: m
    else (k, w) :: Memory.write m a v

/-- The indices of `m` are at least `lo` and strictly rising. -/
def Memory.risingFrom : Memory → Nat → Bool
  | [], _ => true
  | (k, _) :: m, lo => decide (lo ≤ k) && Memory.risingFrom m (k + 1)

/-- The canonical form: indices strictly rising. (No entry can equal what an unlisted index reads
as, since that is no value.) -/
def Memory.wf (m : Memory) : Bool := Memory.risingFrom m 0

/-- The cells of a byte sequence laid out from index `k`. -/
def Memory.cellsFrom : Nat → List Byte → Memory
  | _, [] => []
  | k, b :: bs => (k, b) :: Memory.cellsFrom (k + 1) bs

/-- A buffer whose defined bytes are exactly `bs`, at indices `0 .. len(bs)-1` (R56). -/
def Memory.ofBytes (bs : List Byte) : Memory := Memory.cellsFrom 0 bs

/-- `B[a]` as an operation reads it: an unspecified byte is a free value (log 6). -/
def Memory.byteOr (stamp : Nat) (m : Memory) (a : Nat) : Byte :=
  (Memory.read m a).getD (Config.freeByte stamp a)

/-- `MemRead(B, 0, n)` (spec/00_scope.md R13). -/
def Memory.bytes (stamp : Nat) (m : Memory) (n : Nat) : List Byte :=
  (List.range n).map (Memory.byteOr stamp m)

/-! Issuing an operation. -/

/-- Issue order (spec/20_memory.md R61, R62): an operation runs to completion with no other in
progress; `t` is the state it leaves. -/
def State.issue (s t : State) : Answer :=
  if s.rxs = .done then .next t else .refused .operationInProgress

/-- The same for an operation with an output buffer, which must be distinct from its input buffer
(spec/20_memory.md R58). -/
def State.issueInto (s : State) (ob : OutBuf) (t : State) : Answer :=
  if ob.overlaps then
    if s.rxs = .done then .refused .bufferOverlap else .refused .operationInProgress
  else s.issue t

/-! Outputs (spec/10_state.md R32). -/

/-- The operation ends OK with count `n` and results `r`; it has no output buffer. -/
def State.complete (s : State) (n : Nat) (r : Result) : State :=
  { s with status := .ok, count := n, result := r }

/-- The operation ends OK and the defined bytes of its output buffer are `bs` (R56). -/
def State.completeInto (s : State) (bs : List Byte) (r : Result) : State :=
  { s with status := .ok, count := bs.length, out := Memory.ofBytes bs, result := r }

/-- `raise <Status>` (spec/00_scope.md R15) by an operation without an output buffer: the status is
written; count and the other results are free values (V2 of spec/93_implementation_defined.md). -/
def State.raise (s : State) (st : Status) : State :=
  { s with
    status := st
    count := Config.freeCount s.fresh
    result := Config.freeResult s.fresh
    fresh := s.fresh + 1 }

/-- `raise <Status>` by an operation with an output buffer: its content is unspecified besides
(spec/20_memory.md R56). -/
def State.raiseInto (s : State) (st : Status) : State := { s.raise st with out := [] }

/-! Environment inputs (spec/00_scope.md R17). -/

/-- `key()` (spec/47_rx_dispatch.md R276). -/
def State.nextKey (s : State) : Key × State :=
  match s.keys with
  | k :: ks => (k, { s with keys := ks })
  | [] => (Config.freeKey s.fresh, { s with fresh := s.fresh + 1 })

/-- `ready()` (spec/20_memory.md R66, spec/47_rx_dispatch.md R275). -/
def State.nextReady (s : State) : Bool × State :=
  match s.readys with
  | r :: rs => (r, { s with readys := rs })
  | [] => (Config.freeReady s.fresh, { s with fresh := s.fresh + 1 })

/-- `read()`: it removes the byte it returns from the transport's receive side (R66). -/
def State.nextByte (s : State) : Byte × State :=
  match s.rxLine with
  | b :: bs => (b, { s with rxLine := bs })
  | [] => (Config.lineByte s.fresh, { s with fresh := s.fresh + 1 })

/-- `write(b)` for each byte in increasing index: always accepted, appended to the outbound stream
(R66, R68). -/
def State.writeLine (s : State) (bs : List Byte) : State := { s with txLine := s.txLine ++ bs }

/-- `APP(sip, dip, hdr, payload)` (spec/47_rx_dispatch.md R291). -/
def State.nextApp (s : State) (sip dip : IP4) (hdr : TcpHdr) (payload : List Byte) :
    List Byte × State :=
  match s.apps with
  | a :: as => (a, { s with apps := as })
  | [] => (Config.app sip dip hdr payload, s)

/-! Reset as a transition (spec/70_reset_and_hazards.md R340, R341, R343). -/

/-- Every slot EMPTY and every buffer's content unspecified; the configuration, the transport, the
keyboard and the outputs are not touched (R341). -/
def State.cleared (s : State) : State :=
  { s with
    tab := List.replicate s.cfg.tableCap none
    acc := []
    frame := []
    txBuf := []
    out := [] }

/-- Reset, at an operation boundary only (R343). -/
def resetBlock (s : State) : Answer :=
  if s.rxs = .done then .next s.cleared else .refused .resetInProgress

end Sys2Proof.Machine
end

