-- ==== Sys2Proof/Machine/Checksum.lean ====
section
/-! DEFINITION. The one's-complement checksum pipeline (spec/41_checksum.md). -/

namespace Sys2Proof.Machine

/-- The sum of the 16-bit big-endian words of a byte sequence, an odd trailing byte padded with a
zero low byte (R151). -/
def wordSum : List Byte → Nat
  | [] => 0
  | [a] => a.toNat * 256
  | a :: b :: bs => a.toNat * 256 + b.toNat + wordSum bs

/-- The folding loop (R152): "fold any carry out of bit 16 back into the low 16 bits repeatedly".
The first argument bounds the number of passes; the sum itself does, since each pass strictly
decreases a sum above 0xFFFF. -/
def foldCarries : Nat → Nat → Nat
  | 0, sum => sum
  | passes + 1, sum =>
    if 0xFFFF < sum then foldCarries passes ((sum &&& 0xFFFF) + (sum >>> 16)) else sum

/-- The register `sum` when the folding loop ends (R150). -/
def csumSum (input : List Byte) : Nat := foldCarries (wordSum input) (wordSum input)

/-- CSUM: the one's complement of the folded sum (R150, R153). -/
def csum (input : List Byte) : U16 := ~~~(BitVec.ofNat 16 (csumSum input))

/-- Bytes a building operation has written and the value its CSUM left in `sum`. -/
structure Built where
  bytes : List Byte
  sum : Nat
deriving DecidableEq, Repr

/-- Writes `BE16(v)` at indices `i` and `i+1`: the patch of build-then-patch
(spec/20_memory.md R57). -/
def patch16 (bs : List Byte) (i : Nat) (v : U16) : List Byte :=
  (bs.set i (v.extractLsb' 8 8)).set (i + 1) (v.extractLsb' 0 8)

/-- The pseudo-header (spec/30_encoding.md R95): it exists only inside a checksum computation. -/
def pseudoHeader (srcIp dstIp : IP4) (protocol : Byte) (len : Nat) : List Byte :=
  srcIp.bytes ++ dstIp.bytes ++ [0x00#8, protocol] ++ be16 (len16 len)

/-- A building operation ends: OK with its bytes in the output buffer, or the status it raises. -/
def State.finishBuild (s : State) (r : Except Status Built) : State :=
  match r with
  | .ok b => ({ s with sum := b.sum } : State).completeInto b.bytes .counted
  | .error st => s.raiseInto st

/-- CSUM (R150): every input has a checksum. -/
def execCsum (input : List Byte) (s : State) : Answer :=
  s.issue (({ s with sum := csumSum input } : State).complete 0 (.checksum (csum input)))

end Sys2Proof.Machine
end

