-- ==== Sys2Proof/Machine/Icmp.lean ====
section
/-! DEFINITION. The ICMP echo codec (spec/43_icmp.md). -/

namespace Sys2Proof.Machine

/-- Echo Reply (spec/30_encoding.md R90). -/
def icmpTypeEchoReply : Byte := 0#8

/-- Echo Request (R90). -/
def icmpTypeEchoRequest : Byte := 8#8

/-- The message ICMP_BUILD writes, checksum field zero (R180, spec/30_encoding.md R89). -/
def icmpMessageZero (type : Byte) (identifier sequence : U16) (payload : List Byte) : List Byte :=
  [type, 0x00#8] ++ be16 0x0000#16 ++ be16 identifier ++ be16 sequence ++ payload

/-- ICMP_BUILD's algorithm (R180 to R182). -/
def icmpBuildBytes (type : Byte) (identifier sequence : U16) (payload : List Byte) (cap : Nat) :
    Except Status Built :=
  if cap < 8 + payload.length then .error .outOverflow
  else
    let m := icmpMessageZero type identifier sequence payload
    .ok { bytes := patch16 m 2 (csum m), sum := csumSum m }

/-- ICMP_BUILD (R180). -/
def execIcmpBuild (type : Byte) (identifier sequence : U16) (payload : List Byte) (ob : OutBuf)
    (s : State) : Answer :=
  s.issueInto ob (s.finishBuild (icmpBuildBytes type identifier sequence payload ob.cap))

/-- The header record of a message (R183). -/
def icmpHdrOf (input : List Byte) : IcmpHdr where
  type := byteAt input 0
  code := byteAt input 1
  checksum := getBE16 input 2
  identifier := getBE16 input 4
  sequence := getBE16 input 6

/-- ICMP_PARSE's algorithm (R183, R184). -/
def icmpParseBytes (input : List Byte) : Except Status (IcmpHdr × Slice) :=
  if input.length < 8 then .error .tooShort
  else .ok (icmpHdrOf input, { offset := 8, length := input.length - 8 })

/-- ICMP_PARSE (R183). -/
def execIcmpParse (input : List Byte) (s : State) : Answer :=
  s.issue (match icmpParseBytes input with
    | .ok (hdr, payload) => s.complete 0 (.icmp hdr payload)
    | .error st => s.raise st)

end Sys2Proof.Machine
end

