-- ==== Sys2Proof/Machine/Ipv4.lean ====
section
/-! DEFINITION. The IPv4 header codec (spec/42_ipv4.md). -/

namespace Sys2Proof.Machine

/-- The 20-byte header IP_BUILD writes, checksum field zero (R160, spec/30_encoding.md R85), for a
payload of `n` bytes. -/
def ipHeaderZero (cfg : Config.Params) (src dst : IP4) (protocol : Byte) (n : Nat) : List Byte :=
  [0x45#8, Config.ipTos] ++ be16 (len16 (20 + n)) ++ be16 cfg.ipId ++ be16 Config.ipFlagsFrag ++
    [Config.ipTtl, protocol] ++ be16 0x0000#16 ++ src.bytes ++ dst.bytes

/-- IP_BUILD's algorithm (R160 to R163). -/
def ipBuildBytes (cfg : Config.Params) (src dst : IP4) (protocol : Byte) (payload : List Byte)
    (cap : Nat) : Except Status Built :=
  if 65535 < 20 + payload.length then .error .lenRange
  else if cap < 20 + payload.length then .error .outOverflow
  else
    let h := ipHeaderZero cfg src dst protocol payload.length
    .ok { bytes := patch16 h 10 (csum h) ++ payload, sum := csumSum h }

/-- IP_BUILD (R160). -/
def execIpBuild (src dst : IP4) (protocol : Byte) (payload : List Byte) (ob : OutBuf)
    (s : State) : Answer :=
  s.issueInto ob (s.finishBuild (ipBuildBytes s.cfg src dst protocol payload ob.cap))

/-- The header record of `in[0..20)` (R167). -/
def ipHdrOf (input : List Byte) : IpHdr where
  version := (byteAt input 0).extractLsb' 4 4
  ihl := (byteAt input 0).extractLsb' 0 4
  tos := byteAt input 1
  totalLength := getBE16 input 2
  identification := getBE16 input 4
  flagsFrag := getBE16 input 6
  ttl := byteAt input 8
  protocol := byteAt input 9
  checksum := getBE16 input 10
  src := getIP4 input 12
  dst := getIP4 input 16

/-- IP_PARSE's algorithm (R164, R165, R168, R169). -/
def ipParseBytes (cfg : Config.Params) (input : List Byte) : Except Status (IpHdr × Slice) :=
  if input.length < 20 then .error .tooShort
  else if input.length < ipHeaderLen input then .error .badLength
  else if cfg.ipCheckTotalLength && decide (input.length < (getBE16 input 2).toNat) then
    .error .badLength
  else
    .ok (ipHdrOf input,
      { offset := ipHeaderLen input, length := input.length - ipHeaderLen input })

/-- IP_PARSE (R164). -/
def execIpParse (input : List Byte) (s : State) : Answer :=
  s.issue (match ipParseBytes s.cfg input with
    | .ok (hdr, payload) => s.complete 0 (.ip hdr payload)
    | .error st => s.raise st)

end Sys2Proof.Machine
end

