-- ==== Sys2Proof/Machine/Slip.lean ====
section
/-! DEFINITION. The SLIP framer (spec/40_slip.md). -/

namespace Sys2Proof.Machine

/-- END, the frame delimiter (spec/30_encoding.md R81). -/
def slipEND : Byte := 0xC0#8

/-- ESC (R81). -/
def slipESC : Byte := 0xDB#8

/-- ESC_END, the second byte of an escaped END (R81). -/
def slipESCEND : Byte := 0xDC#8

/-- ESC_ESC, the second byte of an escaped ESC (R81). -/
def slipESCESC : Byte := 0xDD#8

/-! SLIP_ENC (R130). -/

/-- The encoder's working registers (spec/10_state.md R28) and the bytes written so far. -/
structure Enc where
  pos : Nat
  cur : Nat
  out : List Byte
deriving DecidableEq, Repr

/-- `emit(v)` (R130); the error carries the registers at the failure. -/
def emit (cap : Nat) (v : Byte) (e : Enc) : Except Enc Enc :=
  if cap ≤ e.pos then .error e else .ok { e with pos := e.pos + 1, out := e.out ++ [v] }

/-- The symbol of one input byte (R130). -/
def emitSymbol (cap : Nat) (b : Byte) (e : Enc) : Except Enc Enc :=
  if b = slipEND then
    match emit cap slipESC e with
    | .ok e => emit cap slipESCEND e
    | .error e => .error e
  else if b = slipESC then
    match emit cap slipESC e with
    | .ok e => emit cap slipESCESC e
    | .error e => .error e
  else emit cap b e

/-- The loop over the input, in increasing order (R130). -/
def emitAll (cap : Nat) : List Byte → Enc → Except Enc Enc
  | [], e => .ok e
  | b :: bs, e =>
    match emitSymbol cap b e with
    | .ok e => emitAll cap bs { e with cur := e.cur + 1 }
    | .error e => .error e

/-- SLIP_ENC's algorithm (R130): END, the symbols, END. -/
def slipEncode (cap : Nat) (input : List Byte) : Except Enc Enc :=
  match emit cap slipEND { pos := 0, cur := 0, out := [] } with
  | .ok e =>
    match emitAll cap input e with
    | .ok e => emit cap slipEND e
    | .error e => .error e
  | .error e => .error e

/-- The encoder's registers as the operation leaves them. -/
def State.setEnc (s : State) (e : Enc) : State := { s with encPos := e.pos, encCur := e.cur }

/-- SLIP_ENC (R130). -/
def slipEncOp (input : List Byte) (cap : Nat) (s : State) : State :=
  match slipEncode cap input with
  | .ok e => (s.setEnc e).completeInto e.out .counted
  | .error e => (s.setEnc e).raiseInto .outOverflow

/-- SLIP_ENC (R130). -/
def execSlipEnc (input : List Byte) (ob : OutBuf) (s : State) : Answer :=
  s.issueInto ob (slipEncOp input ob.cap s)

/-! SLIP_DEC (R134, R135). -/

/-- The decoder's working registers (spec/10_state.md R27) and its output buffer. -/
structure Dec where
  esc : Bool
  pos : Nat
  cur : Nat
  out : Memory
deriving DecidableEq, Repr

/-- The registers at the start of every SLIP_DEC (spec/10_state.md R27); the output buffer's content
is unspecified. -/
def decStart : Dec := { esc := false, pos := 0, cur := 0, out := [] }

/-- The event of one decoder step (R134). -/
inductive DecEvent where
  /-- `continue` -/
  | more
  /-- `FRAME(n)` -/
  | frame (n : Nat)
  /-- `OVERFLOW` -/
  | overflow
  /-- `BADESC` -/
  | badEscape
deriving DecidableEq, Repr

/-- `put(v)` (R134). -/
def decPut (cap : Nat) (v : Byte) (d : Dec) : Dec × DecEvent :=
  if cap ≤ d.pos then (d, .overflow)
  else ({ d with pos := d.pos + 1, out := Memory.write d.out d.pos v }, .more)

/-- `DecStep` (R134), on the classes of spec/30_encoding.md R84. -/
def decStep (cap : Nat) (d : Dec) (b : Byte) : Dec × DecEvent :=
  if d.esc then
    if b = slipESCEND then decPut cap slipEND { d with esc := false }
    else if b = slipESCESC then decPut cap slipESC { d with esc := false }
    else (d, .badEscape)
  else if b = slipEND then
    if d.pos = 0 then (d, .more) else (d, .frame d.pos)
  else if b = slipESC then ({ d with esc := true }, .more)
  else decPut cap b d

/-- One iteration of SLIP_DEC's loop: a step, and the cursor moves on when it continues (R135). -/
def decFeed (cap : Nat) (d : Dec) (b : Byte) : Dec × DecEvent :=
  match decStep cap d b with
  | (d', .more) => ({ d' with cur := d'.cur + 1 }, .more)
  | r => r

/-- SLIP_DEC's loop (R135): the first event that is not `continue` ends it. -/
def decScan (cap : Nat) : List Byte → Dec → Dec × DecEvent
  | [], d => (d, .more)
  | b :: bs, d =>
    match decFeed cap d b with
    | (d', .more) => decScan cap bs d'
    | r => r

/-- SLIP_DEC's algorithm (R135). -/
def slipDecode (cap : Nat) (input : List Byte) : Dec × DecEvent := decScan cap input decStart

/-- The status of the event that ended a scan (R135). -/
def DecEvent.status : DecEvent → Status
  | .more => .incomplete
  | .frame _ => .ok
  | .overflow => .outOverflow
  | .badEscape => .badEscape

/-- The decoder's registers as the operation leaves them. -/
def State.setDec (s : State) (d : Dec) : State :=
  { s with esc := d.esc, pos := d.pos, cur := d.cur }

/-- SLIP_DEC (R135). -/
def slipDecOp (input : List Byte) (cap : Nat) (s : State) : State :=
  match slipDecode cap input with
  | (d, .frame n) =>
    { s.setDec d with status := .ok, count := n, out := d.out, result := .counted }
  | (d, ev) => (s.setDec d).raiseInto ev.status

/-- SLIP_DEC (R135). -/
def execSlipDec (input : List Byte) (ob : OutBuf) (s : State) : Answer :=
  s.issueInto ob (slipDecOp input ob.cap s)

end Sys2Proof.Machine
end

