-- ==== Sys2Proof/Machine/Flags.lean ====
section
/-! DEFINITION. The flag computations: the block's only flags are the bits of the TCP off_flags
word (spec/30_encoding.md R93, R94; spec/10_state.md R32). -/

namespace Sys2Proof.Machine

/-- FIN, bit 0 (R94). -/
def maskFin : U16 := 0x0001#16

/-- SYN, bit 1 (R94). -/
def maskSyn : U16 := 0x0002#16

/-- RST, bit 2 (R94). -/
def maskRst : U16 := 0x0004#16

/-- PSH, bit 3 (R94). -/
def maskPsh : U16 := 0x0008#16

/-- ACK, bit 4 (R94). -/
def maskAck : U16 := 0x0010#16

/-- The flags field, "the low 9 bits" (R93). -/
def maskFlags : U16 := 0x01FF#16

/-- The data-offset nibble, bits 15:12 (R93). -/
def maskDataOffset : U16 := 0xF000#16

/-- The data offset 5, the only value the block writes (R92, R93). -/
def dataOffset5 : U16 := 0x5000#16

/-- `(v & m) != 0` (spec/00_scope.md R11). -/
def bitSet (v m : U16) : Bool := !(v &&& m == 0#16)

/-- TCP_FLAGS (spec/45_tcp_codec.md R210). -/
def tcpFlagsOf (offFlags : U16) : TcpFlags :=
  let f := offFlags &&& maskFlags
  { syn := bitSet f maskSyn, ack := bitSet f maskAck, fin := bitSet f maskFin,
    rst := bitSet f maskRst }

/-- The off_flags word TCP_BUILD writes: data offset 5, reserved bits 0, the flags in bits 8:0
(R93, spec/45_tcp_codec.md R205). -/
def offFlagsWord (flags : BitVec 9) : U16 := dataOffset5 ||| flags.setWidth 16

/-- Whether a symbol of the off_flags word (its match and mask in spec/opcode_table.json) is present
in a word. -/
def wordHas (w mask pattern : U16) : Bool := w &&& mask == pattern

end Sys2Proof.Machine
end

