-- ==== Sys2Proof/Machine/Tcp.lean ====
section
/-! DEFINITION. The TCP segment codec (spec/45_tcp_codec.md). -/

namespace Sys2Proof.Machine

/-- TCP's protocol number (spec/30_encoding.md R96). -/
def protoTcp : Byte := 6#8

/-- The segment TCP_BUILD writes, checksum field zero, urgent pointer zero (R205,
spec/30_encoding.md R92). -/
def tcpSegmentZero (d : SegDesc) : List Byte :=
  be16 d.srcPort ++ be16 d.dstPort ++ be32 d.seq ++ be32 d.ack ++ be16 (offFlagsWord d.flags) ++
    be16 d.window ++ be16 0x0000#16 ++ be16 0x0000#16 ++ d.payload

/-- What TCP_BUILD sums: the pseudo-header and the segment with its checksum field zero (R207). -/
def tcpCsumInput (d : SegDesc) : List Byte :=
  pseudoHeader d.srcIp d.dstIp protoTcp (20 + d.payload.length) ++ tcpSegmentZero d

/-- TCP_BUILD's algorithm (R205 to R207). -/
def tcpBuildBytes (d : SegDesc) (cap : Nat) : Except Status Built :=
  if 65535 < 20 + d.payload.length then .error .lenRange
  else if cap < 20 + d.payload.length then .error .outOverflow
  else
    .ok { bytes := patch16 (tcpSegmentZero d) 16 (csum (tcpCsumInput d)),
          sum := csumSum (tcpCsumInput d) }

/-- TCP_BUILD (R205). -/
def execTcpBuild (srcPort dstPort : U16) (seq ack : U32) (flags : BitVec 9) (window : U16)
    (payload : List Byte) (srcIp dstIp : IP4) (ob : OutBuf) (s : State) : Answer :=
  s.issueInto ob (s.finishBuild
    (tcpBuildBytes { srcPort, dstPort, seq, ack, flags, window, payload, srcIp, dstIp } ob.cap))

/-- The header record of `in[0..20)` (R208, R209). -/
def tcpHdrOf (input : List Byte) : TcpHdr where
  srcPort := getBE16 input 0
  dstPort := getBE16 input 2
  seq := getBE32 input 4
  ack := getBE32 input 8
  offFlags := getBE16 input 12
  window := getBE16 input 14
  checksum := getBE16 input 16
  urgent := getBE16 input 18

/-- TCP_PARSE's algorithm (R208, R209). -/
def tcpParseBytes (input : List Byte) : Except Status (TcpHdr × Slice) :=
  if input.length < 20 then .error .tooShort
  else if input.length < tcpHeaderLen input then .error .badLength
  else
    .ok (tcpHdrOf input,
      { offset := tcpHeaderLen input, length := input.length - tcpHeaderLen input })

/-- TCP_PARSE (R208). -/
def execTcpParse (input : List Byte) (s : State) : Answer :=
  s.issue (match tcpParseBytes input with
    | .ok (hdr, payload) => s.complete 0 (.tcp hdr payload)
    | .error st => s.raise st)

/-- TCP_FLAGS (R210). -/
def execTcpFlags (offFlags : U16) (s : State) : Answer :=
  s.issue (s.complete 0 (.flags (tcpFlagsOf offFlags)))

end Sys2Proof.Machine
end

