-- ==== Sys2Proof/Machine/TcpTable.lean ====
section
/-! DEFINITION. The TCP connection table and state machine (spec/46_tcp_fsm.md). -/

namespace Sys2Proof.Machine

/-- The closing set (spec/10_state.md R23). -/
def ConnState.isClosing : ConnState → Bool
  | .closed => true
  | .listen => false
  | .synReceived => false
  | .established => false
  | .finWait1 => true
  | .finWait2 => true
  | .closing => true
  | .timeWait => true
  | .closeWait => true
  | .lastAck => true

/-- Whether an occupied slot's record has the 4-tuple `(sip, dip, sp, dp)` (spec/10_state.md R24,
R230): exact, on all four components. -/
def Record.hasKey (r : Record) (sip dip : IP4) (sp dp : U16) : Bool :=
  r.srcIp == sip && r.dstIp == dip && r.srcPort == sp && r.dstPort == dp

/-- The segment descriptor `Seg(r, flags, seq, payload)`, addressed back to the peer, with the
record's `ack` at this moment (R241). -/
def segOf (cfg : Config.Params) (r : Record) (flags : BitVec 9) (seq : U32)
    (payload : List Byte) : SegDesc where
  srcPort := r.dstPort
  dstPort := r.srcPort
  seq := seq
  ack := r.ack
  flags := flags
  window := cfg.tcpWindow
  payload := payload
  srcIp := r.dstIp
  dstIp := r.srcIp

/-- What one application of the state machine leaves: the record, the row that fired (0 if none),
and the descriptors in transmission order (R228, R233). -/
structure FsmOut where
  record : Record
  row : Nat
  tx : List SegDesc
deriving DecidableEq, Repr

/-- Row 1: Listen, SYN and not ACK (R234, R250). The SYN occupies one sequence number. -/
def fsmRow1 (cfg : Config.Params) (hdr : TcpHdr) (r : Record) : FsmOut :=
  let r1 : Record := { r with seq := cfg.isn, ack := hdr.seq + 1#32 }
  { record := { r1 with seq := r1.seq + 1#32, state := .synReceived },
    row := 1,
    tx := [segOf cfg r1 0x012#9 r1.seq []] }

/-- Row 2: SynReceived, ACK (R235). -/
def fsmRow2 (r : Record) : FsmOut :=
  { record := { r with state := .established }, row := 2, tx := [] }

/-- Row 3: Established, payload present (R236). -/
def fsmRow3 (cfg : Config.Params) (hdr : TcpHdr) (plen : Nat) (appData : List Byte)
    (r : Record) : FsmOut :=
  let r1 : Record := { r with ack := hdr.seq + BitVec.ofNat 32 plen }
  { record := { r1 with seq := r1.seq + BitVec.ofNat 32 appData.length, state := .established },
    row := 3,
    tx := [segOf cfg r1 0x010#9 r1.seq appData] }

/-- Row 5: CloseWait, internal: sends FIN|ACK (R238). -/
def fsmRow5 (cfg : Config.Params) (r : Record) : Record × SegDesc :=
  ({ r with seq := r.seq + 1#32, state := .lastAck }, segOf cfg r 0x011#9 r.seq [])

/-- Row 4: Established, FIN; row 5 follows at once when AUTO_CLOSE is true (R237, R238). -/
def fsmRow4 (cfg : Config.Params) (hdr : TcpHdr) (r : Record) : FsmOut :=
  let r1 : Record := { r with ack := hdr.seq + 1#32, state := .closeWait }
  let ackSeg := segOf cfg r1 0x010#9 r1.seq []
  if cfg.autoClose then
    { record := (fsmRow5 cfg r1).1, row := 4, tx := [ackSeg, (fsmRow5 cfg r1).2] }
  else { record := r1, row := 4, tx := [ackSeg] }

/-- Row 6: LastAck, ACK (R239). -/
def fsmRow6 (r : Record) : FsmOut :=
  { record := { r with state := .closed }, row := 6, tx := [] }

/-- No row fires (R240). -/
def fsmNoRow (r : Record) : FsmOut := { record := r, row := 0, tx := [] }

/-- `FsmStep` (R233): the first row, in table order, whose State and Trigger hold; states without a
row have none (R249). -/
def fsmStep (cfg : Config.Params) (hdr : TcpHdr) (plen : Nat) (appData : List Byte)
    (r : Record) : FsmOut :=
  let f := tcpFlagsOf hdr.offFlags
  match r.state with
  | .listen => if f.syn && !f.ack then fsmRow1 cfg hdr r else fsmNoRow r
  | .synReceived => if f.ack then fsmRow2 r else fsmNoRow r
  | .established =>
    if 0 < plen then fsmRow3 cfg hdr plen appData r
    else if f.fin then fsmRow4 cfg hdr r
    else fsmNoRow r
  | .lastAck => if f.ack then fsmRow6 r else fsmNoRow r
  | .closed => fsmNoRow r
  | .finWait1 => fsmNoRow r
  | .finWait2 => fsmNoRow r
  | .closing => fsmNoRow r
  | .timeWait => fsmNoRow r
  | .closeWait => fsmNoRow r

/-- Step (a), reclaim, on one slot (R229). -/
def reclaimSlot : Option Record → Option Record
  | some r => if r.state.isClosing then none else some r
  | none => none

/-- Step (a), reclaim: every occupied slot in the closing set is set EMPTY (R229). -/
def reclaim (tab : Table) : Table := tab.map reclaimSlot

/-- Step (b), lookup: the lowest matching slot and its record (R230); `k` is the index of the first
slot of the list. -/
def lookup (sip dip : IP4) (sp dp : U16) : Table → Nat → Option (Nat × Record)
  | [], _ => none
  | none :: tab, k => lookup sip dip sp dp tab (k + 1)
  | some r :: tab, k =>
    if r.hasKey sip dip sp dp then some (k, r) else lookup sip dip sp dp tab (k + 1)

/-- The lowest EMPTY slot (R231). -/
def firstFree : Table → Nat → Option Nat
  | [], _ => none
  | none :: _, k => some k
  | some _ :: tab, k => firstFree tab (k + 1)

/-- The record step (c) allocates (R228): in Listen, with the segment's 4-tuple. -/
def newRecord (cfg : Config.Params) (sip dip : IP4) (hdr : TcpHdr) : Record where
  state := .listen
  srcIp := sip
  dstIp := dip
  srcPort := hdr.srcPort
  dstPort := hdr.dstPort
  seq := cfg.isn
  ack := 0#32

/-- What TCP_SEG_IN answers beside its status. -/
structure SegIn where
  slot : Nat
  row : Nat
  tx : List SegDesc
deriving DecidableEq, Repr

/-- TCP_SEG_IN's algorithm on the table (R228): the table it leaves, and its results or the status
it raises. -/
def segInTable (cfg : Config.Params) (sip dip : IP4) (hdr : TcpHdr) (plen : Nat)
    (appData : List Byte) (tab : Table) : Table × Except Status SegIn :=
  let tab := reclaim tab
  let f := tcpFlagsOf hdr.offFlags
  match lookup sip dip hdr.srcPort hdr.dstPort tab 0 with
  | some (slot, r) =>
    let o := fsmStep cfg hdr plen appData r
    (tab.set slot (some o.record), .ok { slot := slot, row := o.row, tx := o.tx })
  | none =>
    if f.syn && !f.ack then
      match firstFree tab 0 with
      | none => (tab, .error .tableFull)
      | some slot =>
        let o := fsmStep cfg hdr plen appData (newRecord cfg sip dip hdr)
        (tab.set slot (some o.record), .ok { slot := slot, row := o.row, tx := o.tx })
    else (tab, .error .noConn)

/-- A TCP_SEG_IN that fails: the descriptor list is empty (R231, R232), the other
results are free values (log 8). -/
def State.raiseSegIn (s : State) (st : Status) : State :=
  { s with
    status := st
    count := Config.freeCount s.fresh
    result := .segIn (Config.freeSlot s.fresh) (Config.freeRow s.fresh) []
    fresh := s.fresh + 1 }

/-- TCP_SEG_IN (R228). -/
def tcpSegInOp (sip dip : IP4) (hdr : TcpHdr) (plen : Nat) (appData : List Byte)
    (s : State) : State :=
  match segInTable s.cfg sip dip hdr plen appData s.tab with
  | (tab, .ok r) => ({ s with tab := tab } : State).complete 0 (.segIn r.slot r.row r.tx)
  | (tab, .error st) => ({ s with tab := tab } : State).raiseSegIn st

/-- TCP_SEG_IN (R228). -/
def execTcpSegIn (sip dip : IP4) (hdr : TcpHdr) (plen : Nat) (appData : List Byte)
    (s : State) : Answer :=
  s.issue (tcpSegInOp sip dip hdr plen appData s)

/-- The record TCP_CLOSE acts on: the slot is in range, occupied and in CloseWait (R243). -/
def closeTarget (s : State) (slot : Nat) : Option Record :=
  if s.cfg.tableCap ≤ slot then none
  else
    match s.tab[slot]? with
    | some (some r) => if r.state = .closeWait then some r else none
    | _ => none

/-- TCP_CLOSE (R243): row 5 on the slot; no reclaim scan. -/
def tcpCloseOp (slot : Nat) (s : State) : State :=
  match closeTarget s slot with
  | some r =>
    ({ s with tab := s.tab.set slot (some (fsmRow5 s.cfg r).1) } : State).complete 0
      (.close [(fsmRow5 s.cfg r).2])
  | none =>
    { s with
      status := .noConn
      count := Config.freeCount s.fresh
      result := .close []
      fresh := s.fresh + 1 }

/-- TCP_CLOSE (R243). -/
def execTcpClose (slot : Nat) (s : State) : Answer := s.issue (tcpCloseOp slot s)

end Sys2Proof.Machine
end

