-- ==== Sys2Proof/Machine/Udp.lean ====
section
/-! DEFINITION. The UDP datagram codec (spec/44_udp.md). -/

namespace Sys2Proof.Machine

/-- UDP's protocol number (spec/30_encoding.md R96). -/
def protoUdp : Byte := 17#8

/-- UDP_BUILD's algorithm (R190, R191). The address operands are part of its signature and no header
field holds them. -/
def udpBuildBytes (srcPort dstPort : U16) (payload : List Byte) (cap : Nat) :
    Except Status (List Byte) :=
  if 65535 < 8 + payload.length then .error .lenRange
  else if cap < 8 + payload.length then .error .outOverflow
  else
    .ok (be16 srcPort ++ be16 dstPort ++ be16 (len16 (8 + payload.length)) ++ be16 0x0000#16 ++
      payload)

/-- UDP_BUILD (R190). -/
def execUdpBuild (_srcIp _dstIp : IP4) (srcPort dstPort : U16) (payload : List Byte) (ob : OutBuf)
    (s : State) : Answer :=
  s.issueInto ob (match udpBuildBytes srcPort dstPort payload ob.cap with
    | .ok bs => s.completeInto bs .counted
    | .error st => s.raiseInto st)

/-- UDP_PARSE's algorithm (R192, R193). -/
def udpParseBytes (input : List Byte) : Except Status (UdpHdr × Slice) :=
  if input.length < 8 then .error .tooShort
  else if input.length < (getBE16 input 4).toNat then .error .badLength
  else if (getBE16 input 4).toNat < 8 then .error .badLength
  else
    .ok ({ srcPort := getBE16 input 0, dstPort := getBE16 input 2, length := getBE16 input 4,
           checksum := getBE16 input 6 },
      { offset := 8, length := (getBE16 input 4).toNat - 8 })

/-- UDP_PARSE (R192). -/
def execUdpParse (input : List Byte) (s : State) : Answer :=
  s.issue (match udpParseBytes input with
    | .ok (hdr, payload) => s.complete 0 (.udp hdr payload)
    | .error st => s.raise st)

/-- What UDP_CSUM sums: the pseudo-header and the datagram with its checksum field zeroed (R194). -/
def udpCsumInput (srcIp dstIp : IP4) (dgram : List Byte) : List Byte :=
  pseudoHeader srcIp dstIp protoUdp dgram.length ++ patch16 dgram 6 0x0000#16

/-- UDP_CSUM's algorithm (R194, R195): no value of the checksum is substituted by another. -/
def udpCsumBytes (srcIp dstIp : IP4) (dgram : List Byte) : Except Status (U16 × Built) :=
  if dgram.length < 8 then .error .tooShort
  else if 65535 < dgram.length then .error .lenRange
  else
    let c := csum (udpCsumInput srcIp dstIp dgram)
    .ok (c, { bytes := patch16 (patch16 dgram 6 0x0000#16) 6 c,
              sum := csumSum (udpCsumInput srcIp dstIp dgram) })

/-- UDP_CSUM (R194): in place on the datagram's buffer. -/
def execUdpCsum (srcIp dstIp : IP4) (dgram : List Byte) (s : State) : Answer :=
  s.issue (match udpCsumBytes srcIp dstIp dgram with
    | .ok (c, b) => ({ s with sum := b.sum } : State).completeInto b.bytes (.checksum c)
    | .error st => s.raiseInto st)

end Sys2Proof.Machine
end

