-- ==== Sys2Proof/Machine/Handler.lean ====
section
/-! DEFINITION. The transmit path TX_FRAME, the pseudo-operations ECHO_REPLY, SEND_SEG and DISPATCH,
and the dispatcher's branches, which the wire-symbol rows of IPv4 protocol numbers and ICMP types
select (spec/47_rx_dispatch.md, spec/43_icmp.md R186, spec/46_tcp_fsm.md R248). -/

namespace Sys2Proof.Machine

/-! TX_FRAME (R285, R286). -/

/-- The bytes of a completed encoding stand in TXBUF (spec/10_state.md R31). -/
def State.fillTxBuf (s : State) (bs : List Byte) : State := { s with txBuf := Memory.ofBytes bs }

/-- `write(TXBUF[i])` for `i` from 0 to `n-1` (R285, spec/20_memory.md R68). -/
def State.drainTxBuf (s : State) (n : Nat) : State := s.writeLine (Memory.bytes s.fresh s.txBuf n)

/-- TXBUF's content is unspecified outside TX_FRAME (V3 of spec/93_implementation_defined.md). -/
def State.releaseTxBuf (s : State) : State := { s with txBuf := [] }

/-- TX_FRAME's effect, and its count or the status it raises (R285): a frame is sent whole or not at
all (R286). -/
def transmit (bs : List Byte) (s : State) : State × Except Status Nat :=
  match slipEncode s.cfg.txCap bs with
  | .ok e => ((((s.setEnc e).fillTxBuf e.out).drainTxBuf e.pos).releaseTxBuf, .ok e.pos)
  | .error e => ((s.setEnc e).releaseTxBuf, .error .outOverflow)

/-- An operation that transmits ends: OK with the number of bytes sent, or the status of the step
that failed. -/
def finishSend (r : State × Except Status Nat) : State :=
  match r with
  | (s, .ok n) => s.complete n .counted
  | (s, .error st) => s.raise st

/-- TX_FRAME (R285). -/
def execTxFrame (input : List Byte) (s : State) : Answer := s.issue (finishSend (transmit input s))

/-! Sending a message in a packet. -/

/-- IP_BUILD then TX_FRAME, on a message already built (R116). -/
def sendPacket (src dst : IP4) (protocol : Byte) (message : Built) (s : State) :
    State × Except Status Nat :=
  let s : State := { s with sum := message.sum }
  match ipBuildBytes s.cfg src dst protocol message.bytes s.cfg.pktCap with
  | .ok p => transmit p.bytes { s with sum := p.sum }
  | .error st => (s, .error st)

/-- ICMP's protocol number (spec/30_encoding.md R96). -/
def protoIcmp : Byte := 1#8

/-- ECHO_REPLY's expansion (R186): ICMP_BUILD(0, ..), IP_BUILD with the addresses swapped, TX_FRAME;
`src` and `dst` are those of the request's packet. -/
def echoReply (src dst : IP4) (identifier sequence : U16) (payload : List Byte) (s : State) :
    State × Except Status Nat :=
  match icmpBuildBytes icmpTypeEchoReply identifier sequence payload s.cfg.segCap with
  | .ok m => sendPacket dst src protoIcmp m s
  | .error st => (s, .error st)

/-- ECHO_REPLY (R186): if any of the three steps fails, nothing is transmitted. -/
def execEchoReply (src dst : IP4) (identifier sequence : U16) (payload : List Byte)
    (s : State) : Answer :=
  s.issue (finishSend (echoReply src dst identifier sequence payload s))

/-- SEND_SEG's expansion (R248): TCP_BUILD, IP_BUILD, TX_FRAME. -/
def sendSeg (d : SegDesc) (s : State) : State × Except Status Nat :=
  match tcpBuildBytes d s.cfg.segCap with
  | .ok seg => sendPacket d.srcIp d.dstIp protoTcp seg s
  | .error st => (s, .error st)

/-- SEND_SEG (R248). -/
def execSendSeg (d : SegDesc) (s : State) : Answer := s.issue (finishSend (sendSeg d s))

/-- SEND_SEG for each descriptor in order: one that fails is not transmitted and the remaining ones
are still attempted (R248). -/
def sendAll : List SegDesc → State → State
  | [], s => s
  | d :: ds, s => sendAll ds (sendSeg d s).1

/-! DISPATCH (R290) and its branches. -/

/-- DROPPED, with the status of the step that caused it (R290). -/
def dropFor (cause : Status) : Verdict := { status := .dropped, cause := some cause, event := none }

/-- OK, nothing reported to the host. -/
def verdictOk : Verdict := { status := .ok, cause := none, event := none }

/-- OK, with a report to the host (R291). -/
def reportEvent (e : Event) : Verdict := { status := .ok, cause := none, event := some e }

/-- The dispatcher's action for an Echo Request (R292): answered with ECHO_REPLY; OK if the frame was
transmitted, DROPPED otherwise. -/
def echoRequestAction (src dst : IP4) (identifier sequence : U16) (payload : List Byte)
    (s : State) : Verdict × State :=
  match echoReply src dst identifier sequence payload s with
  | (s, .ok _) => (verdictOk, s)
  | (s, .error st) => (dropFor st, s)

/-- The dispatcher's action for an Echo Reply (R292): reported to the host, nothing transmitted. -/
def echoReplyAction (src : IP4) (identifier sequence : U16) (payload : List Byte)
    (s : State) : Verdict × State :=
  (reportEvent (.echoReplyRx src identifier sequence payload), s)

/-- IcmpBranch (R292). -/
def icmpBranch (src dst : IP4) (p : List Byte) (s : State) : Verdict × State :=
  match icmpParseBytes p with
  | .error st => (dropFor st, s)
  | .ok (hdr, sl) =>
    if hdr.type = icmpTypeEchoRequest then
      echoRequestAction src dst hdr.identifier hdr.sequence (sliceBytes p sl) s
    else if hdr.type = icmpTypeEchoReply then
      echoReplyAction src hdr.identifier hdr.sequence (sliceBytes p sl) s
    else (dropFor .dropped, s)

/-- UdpBranch (R293): reported to the host, nothing transmitted. -/
def udpBranch (src dst : IP4) (p : List Byte) (s : State) : Verdict × State :=
  match udpParseBytes p with
  | .error st => (dropFor st, s)
  | .ok (hdr, sl) =>
    (reportEvent (.udpRx src dst hdr.srcPort hdr.dstPort (sliceBytes p sl)), s)

/-- TcpBranch (R294): APP, TCP_SEG_IN, then SEND_SEG for each descriptor. The table update is
committed before anything is sent (spec/70_reset_and_hazards.md R358). -/
def tcpBranch (src dst : IP4) (p : List Byte) (s : State) : Verdict × State :=
  match tcpParseBytes p with
  | .error st => (dropFor st, s)
  | .ok (hdr, sl) =>
    let (appData, s) := s.nextApp src dst hdr (sliceBytes p sl)
    match segInTable s.cfg src dst hdr sl.length appData s.tab with
    | (tab, .ok r) =>
      (reportEvent (.tcpRx r.slot r.row (sliceBytes p sl)), sendAll r.tx { s with tab := tab })
    | (tab, .error st) => (dropFor st, { s with tab := tab })

/-- DISPATCH's algorithm (R290, R295): the destination address and the checksums are not looked at
(R296). -/
def dispatchFrame (frame : List Byte) (s : State) : Verdict × State :=
  match ipParseBytes s.cfg frame with
  | .error st => (dropFor st, s)
  | .ok (ip, sl) =>
    if ip.protocol = protoIcmp then icmpBranch ip.src ip.dst (sliceBytes frame sl) s
    else if ip.protocol = protoUdp then udpBranch ip.src ip.dst (sliceBytes frame sl) s
    else if ip.protocol = protoTcp then tcpBranch ip.src ip.dst (sliceBytes frame sl) s
    else (dropFor .dropped, s)

/-- DISPATCH or one of its branches ends: its verdict is the result; count is undefined when the
status is not OK (R15 of spec/00_scope.md). -/
def finishVerdict (r : Verdict × State) : State :=
  if r.1.status = .ok then r.2.complete 0 (.verdict r.1)
  else { r.2.raise r.1.status with result := .verdict r.1 }

/-- DISPATCH (R290). -/
def execDispatch (frame : List Byte) (s : State) : Answer :=
  s.issue (finishVerdict (dispatchFrame frame s))

/-! The rows IP.PROTO_ICMP, IP.PROTO_TCP, IP.PROTO_UDP, ICMP.ECHO_REQUEST and ICMP.ECHO_REPLY of the
opcode table: the branch or action DISPATCH takes on the symbol (log 13). -/

/-- IP.PROTO_ICMP (spec/30_encoding.md R96): IcmpBranch (R292). -/
def execIpProtoIcmp (src dst : IP4) (payload : List Byte) (s : State) : Answer :=
  s.issue (finishVerdict (icmpBranch src dst payload s))

/-- IP.PROTO_TCP (R96): TcpBranch (R294). -/
def execIpProtoTcp (src dst : IP4) (payload : List Byte) (s : State) : Answer :=
  s.issue (finishVerdict (tcpBranch src dst payload s))

/-- IP.PROTO_UDP (R96): UdpBranch (R293). -/
def execIpProtoUdp (src dst : IP4) (payload : List Byte) (s : State) : Answer :=
  s.issue (finishVerdict (udpBranch src dst payload s))

/-- ICMP.ECHO_REQUEST (spec/30_encoding.md R90): the dispatcher's answer to type 8 (R292). -/
def execIcmpEchoRequest (src dst : IP4) (identifier sequence : U16) (payload : List Byte)
    (s : State) : Answer :=
  s.issue (finishVerdict (echoRequestAction src dst identifier sequence payload s))

/-- ICMP.ECHO_REPLY (R90): the dispatcher's report of type 0 (R292). -/
def execIcmpEchoReply (src : IP4) (identifier sequence : U16) (payload : List Byte)
    (s : State) : Answer :=
  s.issue (finishVerdict (echoReplyAction src identifier sequence payload s))

end Sys2Proof.Machine
end

