-- ==== Sys2Proof/Machine/Reserved.lean ====
section
/-! DEFINITION. The reserved operation codes 0x11 to 0x1F (spec/30_encoding.md R112): "Issuing one
yields status ILLEGAL_OP, writes nothing and changes no state." -/

namespace Sys2Proof.Machine

/-- Status ILLEGAL_OP and no other effect (R112, decision D36). -/
def illegalOp (s : State) : State := s.raise .illegalOp

/-- Code 0x11 (R112). -/
def execReserved11 (s : State) : Answer := s.issue (illegalOp s)

/-- Code 0x12 (R112). -/
def execReserved12 (s : State) : Answer := s.issue (illegalOp s)

/-- Code 0x13 (R112). -/
def execReserved13 (s : State) : Answer := s.issue (illegalOp s)

/-- Code 0x14 (R112). -/
def execReserved14 (s : State) : Answer := s.issue (illegalOp s)

/-- Code 0x15 (R112). -/
def execReserved15 (s : State) : Answer := s.issue (illegalOp s)

/-- Code 0x16 (R112). -/
def execReserved16 (s : State) : Answer := s.issue (illegalOp s)

/-- Code 0x17 (R112). -/
def execReserved17 (s : State) : Answer := s.issue (illegalOp s)

/-- Code 0x18 (R112). -/
def execReserved18 (s : State) : Answer := s.issue (illegalOp s)

/-- Code 0x19 (R112). -/
def execReserved19 (s : State) : Answer := s.issue (illegalOp s)

/-- Code 0x1A (R112). -/
def execReserved1A (s : State) : Answer := s.issue (illegalOp s)

/-- Code 0x1B (R112). -/
def execReserved1B (s : State) : Answer := s.issue (illegalOp s)

/-- Code 0x1C (R112). -/
def execReserved1C (s : State) : Answer := s.issue (illegalOp s)

/-- Code 0x1D (R112). -/
def execReserved1D (s : State) : Answer := s.issue (illegalOp s)

/-- Code 0x1E (R112). -/
def execReserved1E (s : State) : Answer := s.issue (illegalOp s)

/-- Code 0x1F (R112). -/
def execReserved1F (s : State) : Answer := s.issue (illegalOp s)

end Sys2Proof.Machine
end

