-- ==== Sys2Proof/Machine/Sequencer.lean ====
section
/-! DEFINITION. The receive sequencer RX_POLL (spec/47_rx_dispatch.md R270 to R280). Issuing RX_POLL
enters the loop; each later step of the machine is one iteration of it, until `rxs` is DONE
(log 15). -/

namespace Sys2Proof.Machine

/-- RX_POLL's entry (R271): an empty accumulation buffer, and the key check first. -/
def rxEnter (handler : Handler) (s : State) : State :=
  { s with handler := handler, acc := [], accLen := 0, frame := [], rxs := .pollKey }

/-- RX_POLL (R270). -/
def execRxPoll (handler : Handler) (s : State) : Answer := s.issue (rxEnter handler s)

/-- `rxs <- DONE`; ACC and FRAME exist only while an RX_POLL is in progress
(spec/10_state.md R20, R30). -/
def rxLeave (s : State) : State := { s with rxs := .done, acc := [], frame := [] }

/-- A key check (R272, R276). -/
def rxKeyCheck (s : State) : State :=
  match s.nextKey with
  | (.cancel, s) => (rxLeave s).raise .interrupted
  | (.other, s) => s
  | (.none, s) => { s with rxs := .pollRx }

/-- The byte is appended at `ACC[acc_len]` (R273), or discarded when ACC is full (R277). -/
def accumulate (b : Byte) (s : State) : State :=
  if s.accLen < s.cfg.accCap then
    { s with acc := Memory.write s.acc s.accLen b, accLen := s.accLen + 1 }
  else s

/-- A complete frame of `n` bytes: the handler is invoked exactly once with `FRAME[0..n)` and RX_POLL
returns its result (R279). A host handler's operations come next on the port, and then its return
(log 17). -/
def rxDeliver (n : Nat) (s : State) : State :=
  let f := Memory.bytes s.fresh s.frame n
  match s.handler with
  | .dispatch =>
    let r := dispatchFrame f s
    (rxLeave r.2).complete n (.handled (.dispatch r.1))
  | .identity => (rxLeave s).complete n (.handled (.identity f))
  | .host h =>
    { rxLeave s with
      port := (Config.hostCommands h f s.fresh).map PortItem.command ++
        (.handlerReturn n (Config.hostResult h f s.fresh) :: s.port)
      fresh := s.fresh + 1 }

/-- After a decode error: `hold` keeps polling and appending; `flush` sets `acc_len <- 0` (R278). -/
def rxDecodeError (s : State) : State :=
  match s.cfg.rxErrPolicy with
  | .hold => s
  | .flush => { s with accLen := 0 }

/-- The decode attempt over the whole accumulated prefix, into FRAME (R274), and what follows it
(R278, R279). FRAME is SLIP_DEC's output buffer: after an attempt that ends other than OK its content
is unspecified (spec/20_memory.md R56, spec/40_slip.md R138), so no byte of it is defined (log 11). -/
def rxAttempt (s : State) : State :=
  match slipDecode s.cfg.frameCap (Memory.bytes s.fresh s.acc s.accLen) with
  | (d, .frame n) => rxDeliver n { s.setDec d with frame := d.out }
  | (d, .more) => { s.setDec d with frame := [] }
  | (d, .overflow) => rxDecodeError { s.setDec d with frame := [] }
  | (d, .badEscape) => rxDecodeError { s.setDec d with frame := [] }

/-- A transport check (R270, R273): at most one byte is read, then the key check comes again. -/
def rxLineCheck (s : State) : State :=
  match ({ s with rxs := .pollKey } : State).nextReady with
  | (true, s) =>
    match s.nextByte with
    | (b, s) => rxAttempt (accumulate b s)
  | (false, s) => s

/-- One iteration of RX_POLL's loop (R270). -/
def rxIterate (s : State) : State :=
  match s.rxs with
  | .pollKey => rxKeyCheck s
  | .pollRx => rxLineCheck s
  | .done => s

/-- A host handler returns: RX_POLL ends OK with its count and the handler's result (R279). -/
def handlerReturns (n : Nat) (r : List Byte) (s : State) : State :=
  s.complete n (.handled (.host r))

end Sys2Proof.Machine
end

