-- ==== Sys2Proof/Machine/Symbols.lean ====
section
/-! DEFINITION. The symbol rows of the opcode table that are bytes of a SLIP line
(spec/30_encoding.md R81, R84) and bits of the TCP off_flags word (R93, R94). -/

namespace Sys2Proof.Machine

/-- A symbol row: SLIP_DEC's scan (spec/40_slip.md R135) of `line`, the bytes the symbol is made of,
from the registers every scan starts with (spec/10_state.md R27), into a buffer of FRAME_CAP bytes. It
reads nothing that an earlier operation left and keeps nothing for a later one (R20, R27). That the row
is an operation is the model's choice (log 12). -/
def slipSymbolOp (line : List Byte) (s : State) : State := slipDecOp line s.cfg.frameCap s

/-- SLIP.END (R81): a delimiter with no byte emitted before it is skipped (spec/40_slip.md R136); the
terminating END of a frame is the second row of DecStep's table (R134), in SLIP_DEC's own scan. -/
def execSlipEnd (s : State) : Answer := s.issue (slipSymbolOp [slipEND] s)

/-- SLIP.ESC (R81): it opens a two-byte symbol (spec/40_slip.md R138: INCOMPLETE). -/
def execSlipEsc (s : State) : Answer := s.issue (slipSymbolOp [slipESC] s)

/-- SLIP.ESC_END (R81): after an ESC, the data byte 0xC0. -/
def execSlipEscEnd (s : State) : Answer := s.issue (slipSymbolOp [slipESC, slipESCEND] s)

/-- SLIP.ESC_ESC (R81): after an ESC, the data byte 0xDB. -/
def execSlipEscEsc (s : State) : Answer := s.issue (slipSymbolOp [slipESC, slipESCESC] s)

/-- SLIP.INVALID (R84): after an ESC, a protocol error (spec/40_slip.md R137). -/
def execSlipInvalid (b : Byte) (s : State) : Answer := s.issue (slipSymbolOp [slipESC, b] s)

/-- The symbol with the given mask and pattern is looked for in an off_flags word (log 14). -/
def matchWord (w mask pattern : U16) (s : State) : State :=
  s.complete 0 (.present (wordHas w mask pattern))

/-- TCP.FIN (R94). -/
def execTcpFin (offFlags : U16) (s : State) : Answer :=
  s.issue (matchWord offFlags maskFin maskFin s)

/-- TCP.SYN (R94). -/
def execTcpSyn (offFlags : U16) (s : State) : Answer :=
  s.issue (matchWord offFlags maskSyn maskSyn s)

/-- TCP.RST (R94): extracted, and no rule of the state machine tests it (spec/46_tcp_fsm.md R240). -/
def execTcpRst (offFlags : U16) (s : State) : Answer :=
  s.issue (matchWord offFlags maskRst maskRst s)

/-- TCP.PSH (R94): no rule tests it (spec/45_tcp_codec.md R211). -/
def execTcpPsh (offFlags : U16) (s : State) : Answer :=
  s.issue (matchWord offFlags maskPsh maskPsh s)

/-- TCP.ACK (R94). -/
def execTcpAck (offFlags : U16) (s : State) : Answer :=
  s.issue (matchWord offFlags maskAck maskAck s)

/-- TCP.DATA_OFFSET_5 (R93): a header of 20 bytes. -/
def execTcpDataOffset5 (offFlags : U16) (s : State) : Answer :=
  s.issue (matchWord offFlags maskDataOffset dataOffset5 s)

end Sys2Proof.Machine
end

