-- ==== Sys2Proof/Machine/Dispatch.lean ====
section
/-! DEFINITION. The dispatch of instructions to their meanings, one arm per constructor. -/

namespace Sys2Proof.Machine

/-- The meaning of an instruction. -/
def exec (i : Instr) (s : State) : Host.Outcome State Fault Refusal :=
  match i with
  | .slipEnc input ob => Sys2Proof.Machine.execSlipEnc input ob s
  | .slipDec input ob => Sys2Proof.Machine.execSlipDec input ob s
  | .csum input => Sys2Proof.Machine.execCsum input s
  | .ipBuild src dst protocol payload ob => Sys2Proof.Machine.execIpBuild src dst protocol payload ob s
  | .ipParse input => Sys2Proof.Machine.execIpParse input s
  | .icmpBuild type identifier sequence payload ob => Sys2Proof.Machine.execIcmpBuild type identifier sequence payload ob s
  | .icmpParse input => Sys2Proof.Machine.execIcmpParse input s
  | .udpBuild srcIp dstIp srcPort dstPort payload ob => Sys2Proof.Machine.execUdpBuild srcIp dstIp srcPort dstPort payload ob s
  | .udpParse input => Sys2Proof.Machine.execUdpParse input s
  | .udpCsum srcIp dstIp dgram => Sys2Proof.Machine.execUdpCsum srcIp dstIp dgram s
  | .tcpBuild srcPort dstPort seq ack flags window payload srcIp dstIp ob => Sys2Proof.Machine.execTcpBuild srcPort dstPort seq ack flags window payload srcIp dstIp ob s
  | .tcpParse input => Sys2Proof.Machine.execTcpParse input s
  | .tcpFlags offFlags => Sys2Proof.Machine.execTcpFlags offFlags s
  | .tcpSegIn sip dip hdr plen appData => Sys2Proof.Machine.execTcpSegIn sip dip hdr plen appData s
  | .tcpClose slot => Sys2Proof.Machine.execTcpClose slot s
  | .rxPoll handler => Sys2Proof.Machine.execRxPoll handler s
  | .txFrame input => Sys2Proof.Machine.execTxFrame input s
  | .reserved11 => Sys2Proof.Machine.execReserved11 s
  | .reserved12 => Sys2Proof.Machine.execReserved12 s
  | .reserved13 => Sys2Proof.Machine.execReserved13 s
  | .reserved14 => Sys2Proof.Machine.execReserved14 s
  | .reserved15 => Sys2Proof.Machine.execReserved15 s
  | .reserved16 => Sys2Proof.Machine.execReserved16 s
  | .reserved17 => Sys2Proof.Machine.execReserved17 s
  | .reserved18 => Sys2Proof.Machine.execReserved18 s
  | .reserved19 => Sys2Proof.Machine.execReserved19 s
  | .reserved1A => Sys2Proof.Machine.execReserved1A s
  | .reserved1B => Sys2Proof.Machine.execReserved1B s
  | .reserved1C => Sys2Proof.Machine.execReserved1C s
  | .reserved1D => Sys2Proof.Machine.execReserved1D s
  | .reserved1E => Sys2Proof.Machine.execReserved1E s
  | .reserved1F => Sys2Proof.Machine.execReserved1F s
  | .echoReply src dst identifier sequence payload => Sys2Proof.Machine.execEchoReply src dst identifier sequence payload s
  | .sendSeg d => Sys2Proof.Machine.execSendSeg d s
  | .dispatch frame => Sys2Proof.Machine.execDispatch frame s
  | .slipEnd => Sys2Proof.Machine.execSlipEnd s
  | .slipEsc => Sys2Proof.Machine.execSlipEsc s
  | .slipEscEnd => Sys2Proof.Machine.execSlipEscEnd s
  | .slipEscEsc => Sys2Proof.Machine.execSlipEscEsc s
  | .slipInvalid b => Sys2Proof.Machine.execSlipInvalid b s
  | .ipProtoIcmp src dst payload => Sys2Proof.Machine.execIpProtoIcmp src dst payload s
  | .ipProtoTcp src dst payload => Sys2Proof.Machine.execIpProtoTcp src dst payload s
  | .ipProtoUdp src dst payload => Sys2Proof.Machine.execIpProtoUdp src dst payload s
  | .icmpEchoRequest src dst identifier sequence payload => Sys2Proof.Machine.execIcmpEchoRequest src dst identifier sequence payload s
  | .icmpEchoReply src identifier sequence payload => Sys2Proof.Machine.execIcmpEchoReply src identifier sequence payload s
  | .tcpFin offFlags => Sys2Proof.Machine.execTcpFin offFlags s
  | .tcpSyn offFlags => Sys2Proof.Machine.execTcpSyn offFlags s
  | .tcpRst offFlags => Sys2Proof.Machine.execTcpRst offFlags s
  | .tcpPsh offFlags => Sys2Proof.Machine.execTcpPsh offFlags s
  | .tcpAck offFlags => Sys2Proof.Machine.execTcpAck offFlags s
  | .tcpDataOffset5 offFlags => Sys2Proof.Machine.execTcpDataOffset5 offFlags s

end Sys2Proof.Machine
end

