-- ==== Sys2Proof/Machine/Step.lean ====
section
/-! DEFINITION. The step: the operations the issuer presents run one at a time, in issue order, each
to completion (spec/20_memory.md R61); an RX_POLL in progress runs one iteration of its loop a step
(log 15). The block has no program counter and fetches nothing (spec/10_state.md R34): the next
operation is the head of the command port. -/

namespace Sys2Proof.Machine

/-- The operation at the head of the port, `rest` behind it, with no operation in progress. -/
def stepItem (item : PortItem) (rest : List PortItem) (s : State) :
    Host.Outcome State Fault Refusal :=
  match item with
  | .command packet =>
    match decode packet with
    | .ok (i, _) => exec i { s with port := rest }
    | .error e => .refused (.undecodable e)
  | .reset => resetBlock { s with port := rest }
  | .handlerReturn n r => .next (handlerReturns n r { s with port := rest })

/-- One step. With nothing on the port the block is idle: "it is idle and does nothing until an
operation is issued" (spec/70_reset_and_hazards.md R342). -/
def step (s : State) : Host.Outcome State Fault Refusal :=
  match s.rxs with
  | .done =>
    match s.port with
    | [] => .next s
    | item :: rest => stepItem item rest s
  | .pollKey => .next (rxIterate s)
  | .pollRx => .next (rxIterate s)

/-- `s` with the packet of a table word at the head of the command port and no operation in
progress, so that the next step runs it. -/
def State.withFetchWord (s : State) (nbits w : Nat) : State :=
  { s with rxs := .done, port := .command (tablePacket nbits w) :: s.port }

end Sys2Proof.Machine
end

