-- ==== Sys2Proof/Safety.lean ====
section
/-! DEFINITION. The terms claims are stated in: the spec's closed forms (the SLIP frame of R82, the
words of R151, the folded value of R152, the header layouts of R85 to R95) and what a safe run keeps
(the table invariant of R24 and R246, the reachable states of R244, the buffers' canonical form). -/

namespace Sys2Proof.Machine

/-! The wire forms. -/

/-- `stuffed(payload)` (spec/30_encoding.md R82). -/
def stuffed (bs : List Byte) : List Byte :=
  bs.flatMap fun b =>
    if b = 0xC0#8 then [0xDB#8, 0xDC#8] else if b = 0xDB#8 then [0xDB#8, 0xDD#8] else [b]

/-- A SLIP frame: `END ++ stuffed(payload) ++ END` (R82). -/
def slipFrame (bs : List Byte) : List Byte := 0xC0#8 :: (stuffed bs ++ [0xC0#8])

/-- `s` of spec/40_slip.md R131: the number of bytes equal to 0xC0 or 0xDB. -/
def specialCount (bs : List Byte) : Nat := bs.countP fun b => b == 0xC0#8 || b == 0xDB#8

/-- `k` delimiters: leading END bytes (R136). -/
def delims (k : Nat) : List Byte := List.replicate k 0xC0#8

/-- `Word(in, k)` (spec/41_checksum.md R151). -/
def wordAt (input : List Byte) (k : Nat) : Nat :=
  if 2 * k + 1 < input.length then
    (input.getD (2 * k) 0#8).toNat * 256 + (input.getD (2 * k + 1) 0#8).toNat
  else (input.getD (2 * k) 0#8).toNat * 256

/-- The sum of the words of an input, `k` from 0 to `ceil(len(in)/2) - 1` (R150). -/
def wordTotal (input : List Byte) : Nat :=
  ((List.range ((input.length + 1) / 2)).map (wordAt input)).sum

/-- What folding leaves of a total (R152): the total modulo 0xFFFF, except that a non-zero multiple
of 0xFFFF folds to 0xFFFF. -/
def foldedValue (total : Nat) : Nat :=
  if total % 0xFFFF = 0 ∧ total ≠ 0 then 0xFFFF else total % 0xFFFF

/-- The 20 header bytes of spec/30_encoding.md R85 with checksum field `ck`, for a payload of `n`
bytes. -/
def ipHeaderBytes (cfg : Config.Params) (src dst : IP4) (protocol : Byte) (n : Nat) (ck : U16) :
    List Byte :=
  [0x45#8, 0x00#8] ++ be16 (BitVec.ofNat 16 (20 + n)) ++ be16 cfg.ipId ++ [0x40#8, 0x00#8] ++
    [0x40#8, protocol] ++ be16 ck ++ src.bytes ++ dst.bytes

/-- The packet IP_BUILD answers (spec/42_ipv4.md R160, R163). -/
def ipPacket (cfg : Config.Params) (src dst : IP4) (protocol : Byte) (payload : List Byte) :
    List Byte :=
  ipHeaderBytes cfg src dst protocol payload.length
    (csum (ipHeaderBytes cfg src dst protocol payload.length 0x0000#16)) ++ payload

/-- An ICMP message with checksum field `ck` (spec/30_encoding.md R89). -/
def icmpBytes (type : Byte) (identifier sequence : U16) (payload : List Byte) (ck : U16) :
    List Byte :=
  [type, 0x00#8] ++ be16 ck ++ be16 identifier ++ be16 sequence ++ payload

/-- The message ICMP_BUILD answers (spec/43_icmp.md R180, R182). -/
def icmpMessage (type : Byte) (identifier sequence : U16) (payload : List Byte) : List Byte :=
  icmpBytes type identifier sequence payload
    (csum (icmpBytes type identifier sequence payload 0x0000#16))

/-- A UDP datagram with checksum field `ck` (spec/30_encoding.md R91). -/
def udpBytes (srcPort dstPort : U16) (payload : List Byte) (ck : U16) : List Byte :=
  be16 srcPort ++ be16 dstPort ++ be16 (BitVec.ofNat 16 (8 + payload.length)) ++ be16 ck ++ payload

/-- The pseudo-header (spec/30_encoding.md R95) for `len` bytes of header and payload. -/
def pseudoBytes (srcIp dstIp : IP4) (protocol : Byte) (len : Nat) : List Byte :=
  srcIp.bytes ++ dstIp.bytes ++ [0x00#8, protocol] ++ be16 (BitVec.ofNat 16 len)

/-- A TCP segment with checksum field `ck` (spec/30_encoding.md R92). -/
def tcpBytes (d : SegDesc) (ck : U16) : List Byte :=
  be16 d.srcPort ++ be16 d.dstPort ++ be32 d.seq ++ be32 d.ack ++
    be16 (0x5000#16 ||| d.flags.setWidth 16) ++ be16 d.window ++ be16 ck ++ [0x00#8, 0x00#8] ++
    d.payload

/-- The segment TCP_BUILD answers (spec/45_tcp_codec.md R205, R207). -/
def tcpSegment (d : SegDesc) : List Byte :=
  tcpBytes d (csum (pseudoBytes d.srcIp d.dstIp 6#8 (20 + d.payload.length) ++
    tcpBytes d 0x0000#16))

/-! How operations end. -/

/-- `t` is `s` after a failure: the status is `st`, and nothing else is changed but the count and the
results, which may be anything (spec/60_exceptions.md R300, spec/93_implementation_defined.md V2). -/
def State.failed (s t : State) (st : Status) : Prop :=
  ∃ (n : Nat) (r : Result) (f : Nat),
    t = { s with status := st, count := n, result := r, fresh := f }

/-- The same for an operation with an output buffer, whose content may then be anything
(spec/20_memory.md R56). -/
def State.failedInto (s t : State) (st : Status) : Prop :=
  ∃ (n : Nat) (r : Result) (f : Nat) (o : Memory),
    t = { s with status := st, count := n, result := r, fresh := f, out := o }

/-- `t` is `s` but for the encoder's registers, the checksum register and TXBUF, which an operation
that builds and sends a packet uses and of which nothing is said after it (spec/10_state.md R28, R29,
R31). -/
def State.sameButSending (s t : State) : Prop :=
  ∃ (p c sm : Nat) (tb : Memory), t = { s with encPos := p, encCur := c, sum := sm, txBuf := tb }

/-! What the pseudo-operations send. -/

/-- SLIP_ENC's frame of `bs` fits TXBUF (spec/40_slip.md R132, spec/47_rx_dispatch.md R286). -/
abbrev frameFits (cfg : Config.Params) (bs : List Byte) : Prop :=
  bs.length + 2 + specialCount bs ≤ cfg.txCap

/-- A packet with a payload of `n` bytes can be built (spec/42_ipv4.md R162). -/
abbrev packetFits (cfg : Config.Params) (n : Nat) : Prop := 20 + n ≤ 65535 ∧ 20 + n ≤ cfg.pktCap

/-- The packet ECHO_REPLY sends (spec/43_icmp.md R186) for a request from `src` to `dst`. -/
def echoPacket (cfg : Config.Params) (src dst : IP4) (identifier sequence : U16)
    (payload : List Byte) : List Byte :=
  ipPacket cfg dst src 1#8 (icmpMessage 0#8 identifier sequence payload)

/-- None of ECHO_REPLY's three steps fails (R186). -/
abbrev echoFits (cfg : Config.Params) (src dst : IP4) (identifier sequence : U16)
    (payload : List Byte) : Prop :=
  8 + payload.length ≤ cfg.segCap ∧ packetFits cfg (8 + payload.length) ∧
    frameFits cfg (echoPacket cfg src dst identifier sequence payload)

/-- The packet SEND_SEG sends (spec/46_tcp_fsm.md R248). -/
def segPacket (cfg : Config.Params) (d : SegDesc) : List Byte :=
  ipPacket cfg d.srcIp d.dstIp 6#8 (tcpSegment d)

/-- None of SEND_SEG's three steps fails (R248). -/
abbrev segFits (cfg : Config.Params) (d : SegDesc) : Prop :=
  20 + d.payload.length ≤ 65535 ∧ 20 + d.payload.length ≤ cfg.segCap ∧
    packetFits cfg (20 + d.payload.length) ∧ frameFits cfg (segPacket cfg d)

/-- What SEND_SEG puts on the line: the descriptor's frame, or nothing if a step fails (R248). -/
def segLine (cfg : Config.Params) (d : SegDesc) : List Byte :=
  if segFits cfg d then slipFrame (segPacket cfg d) else []

/-! The symbols of a SLIP line. -/

/-- The line bytes a SLIP symbol row of the opcode table is made of: the symbol (spec/30_encoding.md
R81, R84), after the ESC it is met after (log 12). -/
def slipSymbolLine : Instr → Option (List Byte)
  | .slipEnd => some [0xC0#8]
  | .slipEsc => some [0xDB#8]
  | .slipEscEnd => some [0xDB#8, 0xDC#8]
  | .slipEscEsc => some [0xDB#8, 0xDD#8]
  | .slipInvalid b => some [0xDB#8, b]
  | _ => none

/-! The receive sequencer. -/

/-- The bytes of `m` below `l.length` are those of `l`; the others may be anything. -/
def Memory.holds (m : Memory) (l : List Byte) : Prop :=
  ∀ k, k < l.length → Memory.read m k = l[k]?

/-- The accumulated prefix `ACC[0..acc_len)` is `l` (spec/10_state.md R30). -/
def State.accHolds (s : State) (l : List Byte) : Prop :=
  s.accLen = l.length ∧ Memory.holds s.acc l

/-- The receiver is held: an RX_POLL is in progress, and its accumulated bytes either make every
decode attempt fail under the policy `hold` (spec/70_reset_and_hazards.md R352), or fill ACC without
completing a frame (R357). -/
def State.rxHeld (s : State) : Prop :=
  s.rxs ≠ .done ∧ ∃ l : List Byte, s.accHolds l ∧
    ((s.cfg.rxErrPolicy = .hold ∧
        ((slipDecode s.cfg.frameCap l).2 = .badEscape ∨
          (slipDecode s.cfg.frameCap l).2 = .overflow)) ∨
      (s.cfg.accCap ≤ l.length ∧ (slipDecode s.cfg.frameCap l).2 = .more))

/-! The connection table. -/

/-- What reclaim leaves of a slot (spec/46_tcp_fsm.md R229): a record outside the closing set
(spec/10_state.md R23: Listen, SynReceived, Established) stays, any other slot is EMPTY. -/
def survives (r : Record) : Bool :=
  decide (r.state = .listen ∨ r.state = .synReceived ∨ r.state = .established)

/-- The table after reclaim (R229). -/
def reclaimed (tab : Table) : Table := tab.map fun o => o.filter survives

/-- Slot `k` holds a record with the 4-tuple (spec/10_state.md R24). -/
def Table.matchesAt (tab : Table) (k : Nat) (sip dip : IP4) (sp dp : U16) (r : Record) : Prop :=
  tab[k]? = some (some r) ∧ r.srcIp = sip ∧ r.dstIp = dip ∧ r.srcPort = sp ∧ r.dstPort = dp

/-- No slot holds a record with the 4-tuple. -/
def Table.noMatch (tab : Table) (sip dip : IP4) (sp dp : U16) : Prop :=
  ∀ k r, ¬ tab.matchesAt k sip dip sp dp r

/-- "SYN, !ACK" (spec/46_tcp_fsm.md R226), on the bits of R94. -/
def isSynOnly (offFlags : U16) : Prop :=
  offFlags &&& 0x0002#16 ≠ 0#16 ∧ offFlags &&& 0x0010#16 = 0#16

/-- The ACK bit is set (spec/30_encoding.md R94). -/
def isAck (offFlags : U16) : Prop := offFlags &&& 0x0010#16 ≠ 0#16

/-- The FIN bit is set (R94). -/
def isFin (offFlags : U16) : Prop := offFlags &&& 0x0001#16 ≠ 0#16

/-- A segment descriptor addressed back to the record's peer (spec/46_tcp_fsm.md R241). -/
def replyTo (cfg : Config.Params) (r : Record) (seq ack : U32) (flags : BitVec 9)
    (payload : List Byte) : SegDesc where
  srcPort := r.dstPort
  dstPort := r.srcPort
  seq := seq
  ack := ack
  flags := flags
  window := cfg.tcpWindow
  payload := payload
  srcIp := r.dstIp
  dstIp := r.srcIp

/-- One inbound segment as TCP_SEG_IN takes it (R228). -/
structure Segment where
  sip : IP4
  dip : IP4
  hdr : TcpHdr
  plen : Nat
  appData : List Byte
deriving DecidableEq, Repr

/-- The TCP_SEG_IN of a segment. -/
def Segment.instr (g : Segment) : Instr := .tcpSegIn g.sip g.dip g.hdr g.plen g.appData

/-- The segment's 4-tuple (R230). -/
def Segment.key (g : Segment) : IP4 × IP4 × U16 × U16 :=
  (g.sip, g.dip, g.hdr.srcPort, g.hdr.dstPort)

/-- The record of a connection just opened by a SYN (R228, R234). -/
def openedRecord (cfg : Config.Params) (sip dip : IP4) (hdr : TcpHdr) : Record where
  state := .synReceived
  srcIp := sip
  dstIp := dip
  srcPort := hdr.srcPort
  dstPort := hdr.dstPort
  seq := cfg.isn + 1#32
  ack := hdr.seq + 1#32

/-- The SYN|ACK that answers a SYN (R234, R241). -/
def synAckOf (cfg : Config.Params) (sip dip : IP4) (hdr : TcpHdr) : SegDesc where
  srcPort := hdr.dstPort
  dstPort := hdr.srcPort
  seq := cfg.isn
  ack := hdr.seq + 1#32
  flags := 0x012#9
  window := cfg.tcpWindow
  payload := []
  srcIp := dip
  dstIp := sip

/-- What the TCP branch does with a segment `p` that parses (spec/47_rx_dispatch.md R294), when APP
answers `a` and the list of its coming answers is then `as`: TCP_SEG_IN's table update, then the frames
of its descriptors in order, those that can be built; or DROPPED with TCP_SEG_IN's cause and nothing
sent. -/
def State.tcpBranchEnds (s : State) (src dst : IP4) (p a : List Byte) (as : List (List Byte)) : Prop :=
  ∃ u, exec (.tcpSegIn src dst (tcpHdrOf p) (p.length - tcpHeaderLen p) a) s = .next u ∧
    ((u.status = .ok ∧ ∃ slot row tx w n v, u.result = .segIn slot row tx ∧
        s.sameButSending w ∧ v.status = .ok ∧
        v.event = some (.tcpRx slot row (p.drop (tcpHeaderLen p))) ∧
        exec (.ipProtoTcp src dst p) s = .next { w with
          tab := u.tab, apps := as, txLine := s.txLine ++ tx.flatMap (segLine s.cfg),
          status := .ok, count := n, result := .verdict v }) ∨
      (u.status ≠ .ok ∧ ∃ n f e, exec (.ipProtoTcp src dst p) s = .next { s with
        tab := u.tab, apps := as, status := .dropped, count := n, fresh := f,
        result := .verdict { status := .dropped, cause := some u.status, event := e } }))

/-- Executing operations one after another, in issue order (spec/20_memory.md R61), stopping at the
first that is refused. -/
def execAll : List Instr → State → Answer
  | [], s => .next s
  | i :: is, s =>
    match exec i s with
    | .next t => execAll is t
    | .fault f => .fault f
    | .refused r => .refused r

/-- `n` steps of the machine. -/
def stepN : Nat → State → Answer
  | 0, s => .next s
  | n + 1, s =>
    match step s with
    | .next t => stepN n t
    | .fault f => .fault f
    | .refused r => .refused r

/-! What an instruction may do to the outside. -/

/-- The statuses of spec/60_exceptions.md R302 (and, for the reserved codes, spec/30_encoding.md R112)
an instruction can end with. For ECHO_REPLY and SEND_SEG issued alone (log 22) and for the symbol rows
(logs 12, 13, 14) they are the model's choice: those of the operations they are made of. RX_POLL ends
in a later step. -/
def statusesOf : Instr → List Status
  | .slipEnc .. => [.ok, .outOverflow]
  | .slipDec .. => [.ok, .incomplete, .badEscape, .outOverflow]
  | .csum .. => [.ok]
  | .ipBuild .. => [.ok, .lenRange, .outOverflow]
  | .ipParse .. => [.ok, .tooShort, .badLength]
  | .icmpBuild .. => [.ok, .outOverflow]
  | .icmpParse .. => [.ok, .tooShort]
  | .udpBuild .. => [.ok, .lenRange, .outOverflow]
  | .udpParse .. => [.ok, .tooShort, .badLength]
  | .udpCsum .. => [.ok, .tooShort, .lenRange]
  | .tcpBuild .. => [.ok, .lenRange, .outOverflow]
  | .tcpParse .. => [.ok, .tooShort, .badLength]
  | .tcpFlags .. => [.ok]
  | .tcpSegIn .. => [.ok, .tableFull, .noConn]
  | .tcpClose .. => [.ok, .noConn]
  | .rxPoll .. => [.ok, .interrupted]
  | .txFrame .. => [.ok, .outOverflow]
  | .reserved11 => [.illegalOp]
  | .reserved12 => [.illegalOp]
  | .reserved13 => [.illegalOp]
  | .reserved14 => [.illegalOp]
  | .reserved15 => [.illegalOp]
  | .reserved16 => [.illegalOp]
  | .reserved17 => [.illegalOp]
  | .reserved18 => [.illegalOp]
  | .reserved19 => [.illegalOp]
  | .reserved1A => [.illegalOp]
  | .reserved1B => [.illegalOp]
  | .reserved1C => [.illegalOp]
  | .reserved1D => [.illegalOp]
  | .reserved1E => [.illegalOp]
  | .reserved1F => [.illegalOp]
  | .echoReply .. => [.ok, .lenRange, .outOverflow]
  | .sendSeg .. => [.ok, .lenRange, .outOverflow]
  | .dispatch .. => [.ok, .dropped]
  | .slipEnd => [.incomplete]
  | .slipEsc => [.incomplete]
  | .slipEscEnd => [.incomplete, .outOverflow]
  | .slipEscEsc => [.incomplete, .outOverflow]
  | .slipInvalid .. => [.incomplete, .badEscape, .outOverflow]
  | .ipProtoIcmp .. => [.ok, .dropped]
  | .ipProtoTcp .. => [.ok, .dropped]
  | .ipProtoUdp .. => [.ok, .dropped]
  | .icmpEchoRequest .. => [.ok, .dropped]
  | .icmpEchoReply .. => [.ok]
  | .tcpFin .. => [.ok]
  | .tcpSyn .. => [.ok]
  | .tcpRst .. => [.ok]
  | .tcpPsh .. => [.ok]
  | .tcpAck .. => [.ok]
  | .tcpDataOffset5 .. => [.ok]

/-- The instructions that write to the transport: TX_FRAME and those that contain it
(spec/60_exceptions.md R326, spec/30_encoding.md R116). -/
def transmits : Instr → Bool
  | .txFrame .. => true
  | .echoReply .. => true
  | .sendSeg .. => true
  | .dispatch .. => true
  | .ipProtoIcmp .. => true
  | .ipProtoTcp .. => true
  | .icmpEchoRequest .. => true
  | _ => false

/-- The instructions that act on an inbound TCP segment: TCP_SEG_IN and those that contain it
(R116, spec/46_tcp_fsm.md R229). -/
def takesSegment : Instr → Bool
  | .tcpSegIn .. => true
  | .dispatch .. => true
  | .ipProtoTcp .. => true
  | _ => false

/-- TCP_CLOSE, "the only operation that changes connection state without an inbound segment"
(spec/60_exceptions.md R326). -/
def closes : Instr → Bool
  | .tcpClose .. => true
  | _ => false

/-! What a safe run keeps. -/

/-- TAB has TABLE_CAP slots (spec/10_state.md R20). -/
abbrev State.tableSized (s : State) : Prop := s.tab.length = s.cfg.tableCap

/-- Two records with the same 4-tuple (R24). -/
def Record.sameKey (r r' : Record) : Prop :=
  r.srcIp = r'.srcIp ∧ r.dstIp = r'.dstIp ∧ r.srcPort = r'.srcPort ∧ r.dstPort = r'.dstPort

/-- "at most one occupied slot may match a given 4-tuple at a time" (R24). -/
def Table.keysUnique (tab : Table) : Prop :=
  ∀ (i j : Nat) (r r' : Record), tab[i]? = some (some r) → tab[j]? = some (some r') →
    r.sameKey r' → i = j

/-- The states an occupied slot may have at the end of an operation (spec/46_tcp_fsm.md R244):
SynReceived, Established, LastAck, and CloseWait only when AUTO_CLOSE is false. -/
def ConnState.settled (autoClose : Bool) : ConnState → Bool
  | .synReceived => true
  | .established => true
  | .lastAck => true
  | .closeWait => !autoClose
  | .closed => false
  | .listen => false
  | .finWait1 => false
  | .finWait2 => false
  | .closing => false
  | .timeWait => false

/-- Every occupied slot is in a state of R244. -/
def State.statesSettled (s : State) : Prop :=
  ∀ r : Record, some r ∈ s.tab → r.state.settled s.cfg.autoClose = true

/-- Every buffer is in canonical form. -/
def State.buffersWf (s : State) : Prop :=
  Memory.wf s.acc = true ∧ Memory.wf s.frame = true ∧ Memory.wf s.txBuf = true ∧
    Memory.wf s.out = true

/-- `0 <= acc_len <= ACC_CAP` (spec/10_state.md R30). -/
abbrev State.accBounded (s : State) : Prop := s.accLen ≤ s.cfg.accCap

/-- While an RX_POLL is in progress `ACC[0..acc_len)` holds received bytes (R30): none of them is
unspecified, so that no operation reads an unspecified byte (log 6). -/
def State.accDefined (s : State) : Prop :=
  s.rxs ≠ .done → ∀ k, k < s.accLen → ∃ b, Memory.read s.acc k = some b

/-- The invariant of a run: what R20, R24, R30, R244 and the buffers' form ask together. -/
structure State.Inv (s : State) : Prop where
  tableSized : s.tableSized
  keysUnique : Table.keysUnique s.tab
  statesSettled : s.statesSettled
  buffersWf : s.buffersWf
  accBounded : s.accBounded
  accDefined : s.accDefined

/-- A safe run: every state it reaches keeps the invariant. (The block never faults,
spec/60_exceptions.md R301: `Fault` has no value.) -/
def State.safeStep (s : State) : Prop := ∀ t : State, step s = .next t → t.Inv

end Sys2Proof.Machine
end

