-- ==== Sys2Proof/Certificates/Slice0/Obligations.lean ====
section
/-! DEFINITION. The statements for the provers. `s.rxs = .done` says that no operation is in progress
(spec/20_memory.md R61). A next state is written as a record update: every field not named in it is
unchanged, which is the frame of the instruction. What the spec leaves unspecified after an operation
(a working register, a buffer outside its defined bytes, the count and the results of a failure) is
quantified existentially: nothing is said of it. -/

section

open Sys2Proof Sys2Proof.Machine

/-! SLIP. -/

/-- SLIP_ENC: the frame of R82 when it fits (R130), OUT_OVERFLOW exactly when it does not (R132). -/
def Obligations.SlipEncResult : Prop :=
  ∀ (input : List Byte) (ob : OutBuf) (s : State), s.rxs = .done → ob.overlaps = false →
    (input.length + 2 + specialCount input ≤ ob.cap →
      ∃ p c, exec (.slipEnc input ob) s = .next { s with
        encPos := p, encCur := c, status := .ok,
        count := input.length + 2 + specialCount input,
        out := Memory.ofBytes (slipFrame input), result := .counted }) ∧
    (ob.cap < input.length + 2 + specialCount input →
      ∃ t p c, exec (.slipEnc input ob) s = .next t ∧
        State.failedInto { s with encPos := p, encCur := c } t .outOverflow)

/-- The encoded length law and the form of SLIP_ENC's output (R131). -/
def Obligations.SlipEncLengthLaw : Prop :=
  ∀ (input : List Byte) (ob : OutBuf) (s t : State),
    exec (.slipEnc input ob) s = .next t → t.status = .ok →
      t.count = input.length + 2 + specialCount input ∧
      input.length + 2 ≤ t.count ∧ t.count ≤ 2 * input.length + 2 ∧
      ∃ body : List Byte, t.out = Memory.ofBytes (0xC0#8 :: (body ++ [0xC0#8])) ∧
        body.length + 2 = t.count ∧ (0xC0#8 : Byte) ∉ body ∧
        ∀ k, body[k]? = some 0xDB#8 →
          body[k + 1]? = some 0xDC#8 ∨ body[k + 1]? = some 0xDD#8

/-- SLIP_DEC on leading delimiters, a stuffed body and a terminator: the body, whatever follows
(R135, R136, R140). -/
def Obligations.SlipDecFrame : Prop :=
  ∀ (k : Nat) (b rest : List Byte) (ob : OutBuf) (s : State),
    s.rxs = .done → ob.overlaps = false → b ≠ [] → b.length ≤ ob.cap →
      ∃ e p c, exec (.slipDec (delims k ++ stuffed b ++ 0xC0#8 :: rest) ob) s = .next { s with
        esc := e, pos := p, cur := c, status := .ok, count := b.length,
        out := Memory.ofBytes b, result := .counted }

/-- SLIP_DEC's other ends: input exhausted, also after a dangling ESC (R138), an invalid escape
(R137), a data byte met with the output full (R139). -/
def Obligations.SlipDecOtherEnds : Prop :=
  ∀ (k : Nat) (b : List Byte) (ob : OutBuf) (s : State),
    s.rxs = .done → ob.overlaps = false → b.length ≤ ob.cap →
      (∀ tail : List Byte, tail = [] ∨ tail = [0xDB#8] →
        ∃ t e p c, exec (.slipDec (delims k ++ stuffed b ++ tail) ob) s = .next t ∧
          State.failedInto { s with esc := e, pos := p, cur := c } t .incomplete) ∧
      (∀ (x : Byte) (rest : List Byte), x ≠ 0xDC#8 → x ≠ 0xDD#8 →
        ∃ t e p c, exec (.slipDec (delims k ++ stuffed b ++ 0xDB#8 :: x :: rest) ob) s = .next t ∧
          State.failedInto { s with esc := e, pos := p, cur := c } t .badEscape) ∧
      (∀ (v : Byte) (rest : List Byte), b.length = ob.cap →
        ∃ t e p c, exec (.slipDec (delims k ++ stuffed b ++ (stuffed [v] ++ rest)) ob) s = .next t ∧
          State.failedInto { s with esc := e, pos := p, cur := c } t .outOverflow)

/-- SLIP_DEC ends on every input, with one of four statuses, and each status tells what the input
was (R135 to R140). -/
def Obligations.SlipDecClassifies : Prop :=
  ∀ (input : List Byte) (ob : OutBuf) (s : State), s.rxs = .done → ob.overlaps = false →
    ∃ t, exec (.slipDec input ob) s = .next t ∧
      ((t.status = .ok ∧ ∃ k b rest, b ≠ [] ∧ b.length ≤ ob.cap ∧
          input = delims k ++ stuffed b ++ 0xC0#8 :: rest ∧ t.count = b.length ∧
          t.out = Memory.ofBytes b) ∨
        (t.status = .incomplete ∧ ∃ k b, b.length ≤ ob.cap ∧
          (input = delims k ++ stuffed b ∨ input = delims k ++ stuffed b ++ [0xDB#8])) ∨
        (t.status = .badEscape ∧ ∃ k b x rest, b.length ≤ ob.cap ∧ x ≠ 0xDC#8 ∧ x ≠ 0xDD#8 ∧
          input = delims k ++ stuffed b ++ 0xDB#8 :: x :: rest) ∨
        (t.status = .outOverflow ∧ ∃ k b v rest, b.length = ob.cap ∧
          input = delims k ++ stuffed b ++ (stuffed [v] ++ rest)))

/-- The round-trip law (R141): decoding what SLIP_ENC wrote, read from its output buffer, gives the
bytes encoded. The bytes read do not depend on the stamp of free values. -/
def Obligations.SlipRoundTrip : Prop :=
  ∀ (b : List Byte) (c1 c2 stamp : Nat) (s : State), s.rxs = .done → 1 ≤ b.length →
    b.length + 2 + specialCount b ≤ c1 → b.length ≤ c2 →
      ∃ t u, exec (.slipEnc b { cap := c1, overlaps := false }) s = .next t ∧ t.status = .ok ∧
        exec (.slipDec (Memory.bytes stamp t.out t.count) { cap := c2, overlaps := false }) t =
          .next u ∧
        u.status = .ok ∧ u.count = b.length ∧ u.out = Memory.ofBytes b

/-- SLIP_DEC on a growing input (R142): a result other than INCOMPLETE stays; after INCOMPLETE one
more byte is one more step of the decoder. -/
def Obligations.SlipDecGrowingInput : Prop :=
  (∀ (p q : List Byte) (ob : OutBuf) (s t : State),
    exec (.slipDec p ob) s = .next t → t.status ≠ .incomplete →
      ∃ u, exec (.slipDec (p ++ q) ob) s = .next u ∧ u.status = t.status ∧
        (t.status = .ok → u.count = t.count ∧ u.out = t.out)) ∧
  (∀ (p : List Byte) (x : Byte) (ob : OutBuf) (s : State) (d : Dec),
    s.rxs = .done → ob.overlaps = false → slipDecode ob.cap p = (d, .more) →
      ∃ u, exec (.slipDec (p ++ [x]) ob) s = .next u ∧
        u.status = (decStep ob.cap d x).2.status ∧
        ∀ n, (decStep ob.cap d x).2 = .frame n → u.count = n ∧ u.out = d.out)

/-! The checksum. -/

/-- CSUM: the complement of the folded sum of the words (R150 to R153). -/
def Obligations.CsumResult : Prop :=
  ∀ (input : List Byte) (s : State), s.rxs = .done →
    ∃ n sm, exec (.csum input) s = .next { s with
      sum := sm, status := .ok, count := n,
      result := .checksum (BitVec.ofNat 16 (0xFFFF - foldedValue (wordTotal input))) }

/-- A checksum written into its own zero field makes the whole sum 0xFFFF and the checksum 0 (R155). -/
def Obligations.ChecksumFieldVerifies : Prop :=
  ∀ (before after : List Byte) (s t : State) (c : U16), s.rxs = .done →
    before.length % 2 = 0 →
    exec (.csum (before ++ [0x00#8, 0x00#8] ++ after)) s = .next t → t.result = .checksum c →
      csumSum (before ++ be16 c ++ after) = 0xFFFF ∧
      ∃ u, exec (.csum (before ++ be16 c ++ after)) s = .next u ∧ u.status = .ok ∧
        u.result = .checksum 0x0000#16

/-- The laws of R157: words in any order, an even-length block apart, zero padding. -/
def Obligations.ChecksumWordOrder : Prop :=
  (∀ ws ws' : List U16, ws.Perm ws' → csum (ws.flatMap be16) = csum (ws'.flatMap be16)) ∧
  (∀ p d : List Byte, p.length % 2 = 0 →
    (csum (p ++ d)).toNat = 0xFFFF - foldedValue (wordTotal p + wordTotal d)) ∧
  (∀ d : List Byte, d.length % 2 = 1 → csum (d ++ [0x00#8]) = csum d) ∧
  (∀ d : List Byte, d.length % 2 = 0 → csum (d ++ [0x00#8, 0x00#8]) = csum d)

/-- Every checksum the block writes verifies (R155 at the four fields of R154). -/
def Obligations.BuiltChecksumsVerify : Prop :=
  (∀ (cfg : Config.Params) (src dst : IP4) (protocol : Byte) (payload : List Byte),
    csum ((ipPacket cfg src dst protocol payload).take 20) = 0x0000#16) ∧
  (∀ (type : Byte) (identifier sequence : U16) (payload : List Byte),
    csum (icmpMessage type identifier sequence payload) = 0x0000#16) ∧
  (∀ d : SegDesc, csum (pseudoBytes d.srcIp d.dstIp 6#8 (20 + d.payload.length) ++ tcpSegment d) =
    0x0000#16) ∧
  (∀ (srcIp dstIp : IP4) (dgram : List Byte) (s : State), s.rxs = .done → 8 ≤ dgram.length →
    dgram.length ≤ 65535 →
      ∃ t bs, exec (.udpCsum srcIp dstIp dgram) s = .next t ∧ t.out = Memory.ofBytes bs ∧
        csum (pseudoBytes srcIp dstIp 17#8 dgram.length ++ bs) = 0x0000#16)

/-! The IPv4 codec. -/

/-- IP_BUILD (R160 to R163). -/
def Obligations.IpBuildResult : Prop :=
  ∀ (src dst : IP4) (protocol : Byte) (payload : List Byte) (ob : OutBuf) (s : State),
    s.rxs = .done → ob.overlaps = false →
      (20 + payload.length ≤ 65535 → 20 + payload.length ≤ ob.cap →
        ∃ sm, exec (.ipBuild src dst protocol payload ob) s = .next { s with
          sum := sm, status := .ok, count := 20 + payload.length,
          out := Memory.ofBytes (ipPacket s.cfg src dst protocol payload), result := .counted }) ∧
      (65535 < 20 + payload.length →
        ∃ t, exec (.ipBuild src dst protocol payload ob) s = .next t ∧ s.failedInto t .lenRange) ∧
      (20 + payload.length ≤ 65535 → ob.cap < 20 + payload.length →
        ∃ t, exec (.ipBuild src dst protocol payload ob) s = .next t ∧ s.failedInto t .outOverflow)

/-- IP_PARSE (R164, R165, R167 to R169): the tests in their order, the header record of the first 20
bytes, the payload slice. -/
def Obligations.IpParseResult : Prop :=
  ∀ (input : List Byte) (s : State), s.rxs = .done →
    (input.length < 20 →
      ∃ t, exec (.ipParse input) s = .next t ∧ s.failed t .tooShort) ∧
    (20 ≤ input.length →
      (input.length < (byteAt input 0 &&& 0x0F#8).toNat * 4 →
        ∃ t, exec (.ipParse input) s = .next t ∧ s.failed t .badLength) ∧
      (s.cfg.ipCheckTotalLength = true → input.length < (getBE16 input 2).toNat →
        ∃ t, exec (.ipParse input) s = .next t ∧ s.failed t .badLength) ∧
      ((byteAt input 0 &&& 0x0F#8).toNat * 4 ≤ input.length →
        (s.cfg.ipCheckTotalLength = true → (getBE16 input 2).toNat ≤ input.length) →
        ∃ n, exec (.ipParse input) s = .next { s with
          status := .ok, count := n,
          result := .ip
            { version := (byteAt input 0 >>> 4).setWidth 4,
              ihl := (byteAt input 0 &&& 0x0F#8).setWidth 4,
              tos := byteAt input 1, totalLength := getBE16 input 2,
              identification := getBE16 input 4, flagsFrag := getBE16 input 6,
              ttl := byteAt input 8, protocol := byteAt input 9, checksum := getBE16 input 10,
              src := getIP4 input 12, dst := getIP4 input 16 }
            { offset := (byteAt input 0 &&& 0x0F#8).toNat * 4,
              length := input.length - (byteAt input 0 &&& 0x0F#8).toNat * 4 } }))

/-- Parsing a built packet gives the fields IP_BUILD wrote and the payload (R85, R160, R164). -/
def Obligations.IpBuildThenParse : Prop :=
  ∀ (src dst : IP4) (protocol : Byte) (payload : List Byte) (s : State), s.rxs = .done →
    20 + payload.length ≤ 65535 →
      ∃ n ck, exec (.ipParse (ipPacket s.cfg src dst protocol payload)) s = .next { s with
        status := .ok, count := n,
        result := .ip
          { version := 4#4, ihl := 5#4, tos := 0x00#8,
            totalLength := BitVec.ofNat 16 (20 + payload.length), identification := s.cfg.ipId,
            flagsFrag := 0x4000#16, ttl := 64#8, protocol := protocol, checksum := ck,
            src := src, dst := dst }
          { offset := 20, length := payload.length } } ∧
      sliceBytes (ipPacket s.cfg src dst protocol payload)
        { offset := 20, length := payload.length } = payload

/-! The ICMP and UDP codecs. -/

/-- ICMP_BUILD (R180 to R182). -/
def Obligations.IcmpBuildResult : Prop :=
  ∀ (type : Byte) (identifier sequence : U16) (payload : List Byte) (ob : OutBuf) (s : State),
    s.rxs = .done → ob.overlaps = false →
      (8 + payload.length ≤ ob.cap →
        ∃ sm, exec (.icmpBuild type identifier sequence payload ob) s = .next { s with
          sum := sm, status := .ok, count := 8 + payload.length,
          out := Memory.ofBytes (icmpMessage type identifier sequence payload),
          result := .counted }) ∧
      (ob.cap < 8 + payload.length →
        ∃ t, exec (.icmpBuild type identifier sequence payload ob) s = .next t ∧
          s.failedInto t .outOverflow)

/-- ICMP_PARSE (R183, R184). -/
def Obligations.IcmpParseResult : Prop :=
  ∀ (input : List Byte) (s : State), s.rxs = .done →
    (input.length < 8 →
      ∃ t, exec (.icmpParse input) s = .next t ∧ s.failed t .tooShort) ∧
    (8 ≤ input.length →
      ∃ n, exec (.icmpParse input) s = .next { s with
        status := .ok, count := n,
        result := .icmp
          { type := byteAt input 0, code := byteAt input 1, checksum := getBE16 input 2,
            identifier := getBE16 input 4, sequence := getBE16 input 6 }
          { offset := 8, length := input.length - 8 } })

/-- UDP_BUILD (R190, R191): the addresses are used by nothing. -/
def Obligations.UdpBuildResult : Prop :=
  ∀ (srcIp dstIp : IP4) (srcPort dstPort : U16) (payload : List Byte) (ob : OutBuf) (s : State),
    s.rxs = .done → ob.overlaps = false →
      (8 + payload.length ≤ 65535 → 8 + payload.length ≤ ob.cap →
        exec (.udpBuild srcIp dstIp srcPort dstPort payload ob) s = .next { s with
          status := .ok, count := 8 + payload.length,
          out := Memory.ofBytes (udpBytes srcPort dstPort payload 0x0000#16),
          result := .counted }) ∧
      (65535 < 8 + payload.length →
        ∃ t, exec (.udpBuild srcIp dstIp srcPort dstPort payload ob) s = .next t ∧
          s.failedInto t .lenRange) ∧
      (8 + payload.length ≤ 65535 → ob.cap < 8 + payload.length →
        ∃ t, exec (.udpBuild srcIp dstIp srcPort dstPort payload ob) s = .next t ∧
          s.failedInto t .outOverflow)

/-- UDP_PARSE (R192, R193). -/
def Obligations.UdpParseResult : Prop :=
  ∀ (input : List Byte) (s : State), s.rxs = .done →
    (input.length < 8 →
      ∃ t, exec (.udpParse input) s = .next t ∧ s.failed t .tooShort) ∧
    (8 ≤ input.length →
      (input.length < (getBE16 input 4).toNat ∨ (getBE16 input 4).toNat < 8 →
        ∃ t, exec (.udpParse input) s = .next t ∧ s.failed t .badLength) ∧
      ((getBE16 input 4).toNat ≤ input.length → 8 ≤ (getBE16 input 4).toNat →
        ∃ n, exec (.udpParse input) s = .next { s with
          status := .ok, count := n,
          result := .udp
            { srcPort := getBE16 input 0, dstPort := getBE16 input 2, length := getBE16 input 4,
              checksum := getBE16 input 6 }
            { offset := 8, length := (getBE16 input 4).toNat - 8 } }))

/-- UDP_CSUM (R194, R195): the datagram with its checksum field overwritten; a computed zero is
written as zero. -/
def Obligations.UdpCsumResult : Prop :=
  ∀ (srcIp dstIp : IP4) (dgram : List Byte) (s : State), s.rxs = .done →
    (dgram.length < 8 →
      ∃ t, exec (.udpCsum srcIp dstIp dgram) s = .next t ∧ s.failedInto t .tooShort) ∧
    (65535 < dgram.length →
      ∃ t, exec (.udpCsum srcIp dstIp dgram) s = .next t ∧ s.failedInto t .lenRange) ∧
    (8 ≤ dgram.length → dgram.length ≤ 65535 →
      ∃ n sm c, c = csum (pseudoBytes srcIp dstIp 17#8 dgram.length ++
          (dgram.take 6 ++ [0x00#8, 0x00#8] ++ dgram.drop 8)) ∧
        exec (.udpCsum srcIp dstIp dgram) s = .next { s with
          sum := sm, status := .ok, count := n,
          out := Memory.ofBytes (dgram.take 6 ++ be16 c ++ dgram.drop 8),
          result := .checksum c })

/-- Parsing a built ICMP message or UDP datagram gives the operands back (R89, R91, R180, R183, R190,
R192). -/
def Obligations.MessageBuildThenParse : Prop :=
  (∀ (type : Byte) (identifier sequence : U16) (payload : List Byte) (s : State), s.rxs = .done →
    ∃ n ck, exec (.icmpParse (icmpMessage type identifier sequence payload)) s = .next { s with
        status := .ok, count := n,
        result := .icmp { type := type, code := 0x00#8, checksum := ck, identifier := identifier,
                          sequence := sequence }
          { offset := 8, length := payload.length } } ∧
      sliceBytes (icmpMessage type identifier sequence payload)
        { offset := 8, length := payload.length } = payload) ∧
  (∀ (srcPort dstPort : U16) (payload : List Byte) (s : State), s.rxs = .done →
    8 + payload.length ≤ 65535 →
    ∃ n, exec (.udpParse (udpBytes srcPort dstPort payload 0x0000#16)) s = .next { s with
        status := .ok, count := n,
        result := .udp { srcPort := srcPort, dstPort := dstPort,
                         length := BitVec.ofNat 16 (8 + payload.length), checksum := 0x0000#16 }
          { offset := 8, length := payload.length } } ∧
      sliceBytes (udpBytes srcPort dstPort payload 0x0000#16)
        { offset := 8, length := payload.length } = payload)

/-! The TCP codec. -/

/-- TCP_BUILD (R205 to R207). -/
def Obligations.TcpBuildResult : Prop :=
  ∀ (d : SegDesc) (ob : OutBuf) (s : State), s.rxs = .done → ob.overlaps = false →
    (20 + d.payload.length ≤ 65535 → 20 + d.payload.length ≤ ob.cap →
      ∃ sm, exec (.tcpBuild d.srcPort d.dstPort d.seq d.ack d.flags d.window d.payload d.srcIp
          d.dstIp ob) s = .next { s with
        sum := sm, status := .ok, count := 20 + d.payload.length,
        out := Memory.ofBytes (tcpSegment d), result := .counted }) ∧
    (65535 < 20 + d.payload.length →
      ∃ t, exec (.tcpBuild d.srcPort d.dstPort d.seq d.ack d.flags d.window d.payload d.srcIp
          d.dstIp ob) s = .next t ∧ s.failedInto t .lenRange) ∧
    (20 + d.payload.length ≤ 65535 → ob.cap < 20 + d.payload.length →
      ∃ t, exec (.tcpBuild d.srcPort d.dstPort d.seq d.ack d.flags d.window d.payload d.srcIp
          d.dstIp ob) s = .next t ∧ s.failedInto t .outOverflow)

/-- TCP_PARSE (R208, R209). -/
def Obligations.TcpParseResult : Prop :=
  ∀ (input : List Byte) (s : State), s.rxs = .done →
    (input.length < 20 →
      ∃ t, exec (.tcpParse input) s = .next t ∧ s.failed t .tooShort) ∧
    (20 ≤ input.length →
      (input.length < (byteAt input 12 >>> 4).toNat * 4 →
        ∃ t, exec (.tcpParse input) s = .next t ∧ s.failed t .badLength) ∧
      ((byteAt input 12 >>> 4).toNat * 4 ≤ input.length →
        ∃ n, exec (.tcpParse input) s = .next { s with
          status := .ok, count := n,
          result := .tcp
            { srcPort := getBE16 input 0, dstPort := getBE16 input 2, seq := getBE32 input 4,
              ack := getBE32 input 8, offFlags := getBE16 input 12, window := getBE16 input 14,
              checksum := getBE16 input 16, urgent := getBE16 input 18 }
            { offset := (byteAt input 12 >>> 4).toNat * 4,
              length := input.length - (byteAt input 12 >>> 4).toNat * 4 } }))

/-- TCP_FLAGS (R210): four bits of the word; no other bit has an influence (R211). -/
def Obligations.TcpFlagsResult : Prop :=
  ∀ (w : U16) (s : State), s.rxs = .done →
    ∃ n, exec (.tcpFlags w) s = .next { s with
      status := .ok, count := n,
      result := .flags { syn := w.getLsbD 1, ack := w.getLsbD 4, fin := w.getLsbD 0,
                         rst := w.getLsbD 2 } }

/-- Parsing a built segment gives the operands back (R92, R93, R205, R208). -/
def Obligations.TcpBuildThenParse : Prop :=
  ∀ (d : SegDesc) (s : State), s.rxs = .done →
    ∃ n ck, exec (.tcpParse (tcpSegment d)) s = .next { s with
        status := .ok, count := n,
        result := .tcp
          { srcPort := d.srcPort, dstPort := d.dstPort, seq := d.seq, ack := d.ack,
            offFlags := 0x5000#16 ||| d.flags.setWidth 16, window := d.window, checksum := ck,
            urgent := 0x0000#16 }
          { offset := 20, length := d.payload.length } } ∧
      sliceBytes (tcpSegment d) { offset := 20, length := d.payload.length } = d.payload

/-! The connection table. -/

/-- TCP_SEG_IN, a SYN for an unknown 4-tuple with an EMPTY slot after reclaim: the lowest one takes
the connection, and a SYN|ACK answers (R228, R229, R231, R234, R241). -/
def Obligations.SegInOpens : Prop :=
  ∀ (sip dip : IP4) (hdr : TcpHdr) (plen : Nat) (app : List Byte) (s : State) (slot : Nat),
    s.rxs = .done → Table.noMatch (reclaimed s.tab) sip dip hdr.srcPort hdr.dstPort →
    isSynOnly hdr.offFlags → (reclaimed s.tab)[slot]? = some none →
    (∀ j, j < slot → ∃ r, (reclaimed s.tab)[j]? = some (some r)) →
      ∃ n, exec (.tcpSegIn sip dip hdr plen app) s = .next { s with
        tab := (reclaimed s.tab).set slot (some (openedRecord s.cfg sip dip hdr)),
        status := .ok, count := n,
        result := .segIn slot 1 [synAckOf s.cfg sip dip hdr] }

/-- TCP_SEG_IN, a segment for a known 4-tuple: the lowest matching slot of the reclaimed table takes
the state machine's step, and only that slot (R228 to R230, R233). -/
def Obligations.SegInRoutes : Prop :=
  ∀ (sip dip : IP4) (hdr : TcpHdr) (plen : Nat) (app : List Byte) (s : State) (slot : Nat)
    (r : Record),
    s.rxs = .done → (reclaimed s.tab).matchesAt slot sip dip hdr.srcPort hdr.dstPort r →
    (∀ j q, j < slot → ¬ (reclaimed s.tab).matchesAt j sip dip hdr.srcPort hdr.dstPort q) →
      ∃ n, exec (.tcpSegIn sip dip hdr plen app) s = .next { s with
        tab := (reclaimed s.tab).set slot (some (fsmStep s.cfg hdr plen app r).record),
        status := .ok, count := n,
        result := .segIn slot (fsmStep s.cfg hdr plen app r).row
          (fsmStep s.cfg hdr plen app r).tx }

/-- TCP_SEG_IN, no matching record: TABLE_FULL for a SYN with no EMPTY slot (R231), NO_CONN for any
other segment (R232); only the reclaim of step (a) is left in the table, and nothing is to be sent. -/
def Obligations.SegInDrops : Prop :=
  ∀ (sip dip : IP4) (hdr : TcpHdr) (plen : Nat) (app : List Byte) (s : State),
    s.rxs = .done → Table.noMatch (reclaimed s.tab) sip dip hdr.srcPort hdr.dstPort →
      (isSynOnly hdr.offFlags → none ∉ reclaimed s.tab →
        ∃ n k w f, exec (.tcpSegIn sip dip hdr plen app) s = .next { s with
          tab := reclaimed s.tab, status := .tableFull, count := n, result := .segIn k w [],
          fresh := f }) ∧
      (¬ isSynOnly hdr.offFlags →
        ∃ n k w f, exec (.tcpSegIn sip dip hdr plen app) s = .next { s with
          tab := reclaimed s.tab, status := .noConn, count := n, result := .segIn k w [],
          fresh := f })

/-- The rows of the transition table (R233 to R241, R249): what one step makes of a record. -/
def Obligations.FsmRows : Prop :=
  ∀ (cfg : Config.Params) (hdr : TcpHdr) (plen : Nat) (app : List Byte) (r : Record),
    (r.state = .listen → isSynOnly hdr.offFlags →
      fsmStep cfg hdr plen app r =
        { record := { r with state := .synReceived, seq := cfg.isn + 1#32, ack := hdr.seq + 1#32 },
          row := 1, tx := [replyTo cfg r cfg.isn (hdr.seq + 1#32) 0x012#9 []] }) ∧
    (r.state = .synReceived → isAck hdr.offFlags →
      fsmStep cfg hdr plen app r =
        { record := { r with state := .established }, row := 2, tx := [] }) ∧
    (r.state = .established → 0 < plen →
      fsmStep cfg hdr plen app r =
        { record := { r with seq := r.seq + BitVec.ofNat 32 app.length,
                             ack := hdr.seq + BitVec.ofNat 32 plen },
          row := 3,
          tx := [replyTo cfg r r.seq (hdr.seq + BitVec.ofNat 32 plen) 0x010#9 app] }) ∧
    (r.state = .established → plen = 0 → isFin hdr.offFlags → cfg.autoClose = true →
      fsmStep cfg hdr plen app r =
        { record := { r with state := .lastAck, seq := r.seq + 1#32, ack := hdr.seq + 1#32 },
          row := 4,
          tx := [replyTo cfg r r.seq (hdr.seq + 1#32) 0x010#9 [],
                 replyTo cfg r r.seq (hdr.seq + 1#32) 0x011#9 []] }) ∧
    (r.state = .established → plen = 0 → isFin hdr.offFlags → cfg.autoClose = false →
      fsmStep cfg hdr plen app r =
        { record := { r with state := .closeWait, ack := hdr.seq + 1#32 },
          row := 4, tx := [replyTo cfg r r.seq (hdr.seq + 1#32) 0x010#9 []] }) ∧
    (r.state = .lastAck → isAck hdr.offFlags →
      fsmStep cfg hdr plen app r =
        { record := { r with state := .closed }, row := 6, tx := [] }) ∧
    ((r.state = .listen ∧ ¬ isSynOnly hdr.offFlags) ∨
        (r.state = .synReceived ∧ ¬ isAck hdr.offFlags) ∨
        (r.state = .established ∧ plen = 0 ∧ ¬ isFin hdr.offFlags) ∨
        (r.state = .lastAck ∧ ¬ isAck hdr.offFlags) ∨
        r.state ∈ [.closed, .finWait1, .finWait2, .closing, .timeWait, .closeWait] →
      fsmStep cfg hdr plen app r = { record := r, row := 0, tx := [] })

/-- Capacity (R247): from an empty table, SYNs with TABLE_CAP pairwise different 4-tuples are all
accepted, in slots 0, 1, …; one more, with yet another 4-tuple, ends TABLE_FULL with nothing to send,
and the connections stay. -/
def Obligations.TableCapacityRun : Prop :=
  ∀ (s : State) (gs : List Segment), s.rxs = .done →
    s.tab = List.replicate s.cfg.tableCap none → gs.length = s.cfg.tableCap →
    (gs.map Segment.key).Nodup → (∀ g ∈ gs, isSynOnly g.hdr.offFlags) →
      (∀ k g, gs[k]? = some g →
        ∃ t u, execAll ((gs.take k).map Segment.instr) s = .next t ∧ exec g.instr t = .next u ∧
          u.status = .ok ∧ u.result = .segIn k 1 [synAckOf s.cfg g.sip g.dip g.hdr]) ∧
      ∃ t, execAll (gs.map Segment.instr) s = .next t ∧
        t.tab = gs.map (fun g => some (openedRecord s.cfg g.sip g.dip g.hdr)) ∧
        ∀ g : Segment, isSynOnly g.hdr.offFlags → g.key ∉ gs.map Segment.key →
          ∃ u n w, exec g.instr t = .next u ∧ u.status = .tableFull ∧
            u.result = .segIn n w [] ∧ u.tab = t.tab

/-- The peer's last ACK is dropped (R354, R244): a segment for the 4-tuple of a record in LastAck
finds no record, is answered by nothing, and leaves the slot EMPTY at once; a SYN without ACK opens a
brand-new connection. -/
def Obligations.LastAckNeverMatched : Prop :=
  ∀ (s : State) (k : Nat) (r : Record) (hdr : TcpHdr) (plen : Nat) (app : List Byte),
    s.rxs = .done → Table.keysUnique s.tab → s.tab[k]? = some (some r) → r.state = .lastAck →
    hdr.srcPort = r.srcPort → hdr.dstPort = r.dstPort →
      (isAck hdr.offFlags →
        ∃ t n w, exec (.tcpSegIn r.srcIp r.dstIp hdr plen app) s = .next t ∧ t.status = .noConn ∧
          t.result = .segIn n w [] ∧ t.txLine = s.txLine ∧ t.tab[k]? = some none) ∧
      (isSynOnly hdr.offFlags →
        ∃ t slot, exec (.tcpSegIn r.srcIp r.dstIp hdr plen app) s = .next t ∧ t.status = .ok ∧
          t.result = .segIn slot 1 [synAckOf s.cfg r.srcIp r.dstIp hdr] ∧
          t.tab[slot]? = some (some (openedRecord s.cfg r.srcIp r.dstIp hdr)))

/-- TCP_CLOSE (R243, R238): row 5 on a slot in CloseWait, NO_CONN otherwise; no reclaim. -/
def Obligations.TcpCloseResult : Prop :=
  ∀ (slot : Nat) (s : State), s.rxs = .done →
    (∀ r, slot < s.cfg.tableCap → s.tab[slot]? = some (some r) → r.state = .closeWait →
      ∃ n, exec (.tcpClose slot) s = .next { s with
        tab := s.tab.set slot (some { r with seq := r.seq + 1#32, state := .lastAck }),
        status := .ok, count := n,
        result := .close [replyTo s.cfg r r.seq r.ack 0x011#9 []] }) ∧
    ((s.cfg.tableCap ≤ slot ∨ ∀ r, s.tab[slot]? = some (some r) → r.state ≠ .closeWait) →
      ∃ t, exec (.tcpClose slot) s = .next t ∧ s.failed t .noConn)

/-! The receive sequencer. -/

/-- RX_POLL's entry (R271, R30): an empty accumulation buffer and the key check first. The operation
itself goes on in later steps (the model's choice, log 15). -/
def Obligations.RxPollEnters : Prop :=
  ∀ (h : Handler) (s : State), s.rxs = .done →
    ∃ a f, exec (.rxPoll h) s = .next { s with
      handler := h, acc := a, accLen := 0, frame := f, rxs := .pollKey }

/-- A key check (R272, R276), for an answer the input list gives, and for a free one (log 16). -/
def Obligations.RxKeyCheck : Prop :=
  ∀ s : State, s.rxs = .pollKey →
    (∀ ks, s.keys = .none :: ks → step s = .next { s with keys := ks, rxs := .pollRx }) ∧
    (∀ ks, s.keys = .other :: ks → step s = .next { s with keys := ks }) ∧
    (∀ ks, s.keys = .cancel :: ks →
      ∃ n r f a b, step s = .next { s with
        keys := ks, rxs := .done, acc := a, frame := b, status := .interrupted, count := n,
        result := r, fresh := f }) ∧
    (s.keys = [] →
      (∃ f, step s = .next { s with rxs := .pollRx, fresh := f }) ∨
      (∃ f, step s = .next { s with fresh := f }) ∨
      (∃ n r f a b, step s = .next { s with
        rxs := .done, acc := a, frame := b, status := .interrupted, count := n, result := r,
        fresh := f }))

/-- A transport check (R273, R274, R277, R278): nothing is read while no byte is ready; a byte read
is appended, or discarded when ACC is full; an attempt that gives no frame keeps polling, and under
`flush` a decode error empties the accumulation. Where the input lists are empty, the answer of
`ready()` is yes or no, and the byte read is some byte: the step is then the step with that answer
listed (the model's choice of its inputs, log 16). -/
def Obligations.RxReadsByte : Prop :=
  ∀ (s : State) (l : List Byte), s.rxs = .pollRx → s.accHolds l →
    (∀ rs, s.readys = false :: rs → step s = .next { s with rxs := .pollKey, readys := rs }) ∧
    (∀ rs b bs l' d ev, s.readys = true :: rs → s.rxLine = b :: bs →
      l' = (if l.length < s.cfg.accCap then l ++ [b] else l) →
      slipDecode s.cfg.frameCap l' = (d, ev) →
        (ev = .more ∨ (s.cfg.rxErrPolicy = .hold ∧ (ev = .badEscape ∨ ev = .overflow)) →
          ∃ e p c f a, Memory.holds a l' ∧ step s = .next { s with
            rxs := .pollKey, readys := rs, rxLine := bs, acc := a,
            accLen := l'.length, esc := e, pos := p, cur := c, frame := f }) ∧
        (s.cfg.rxErrPolicy = .flush → (ev = .badEscape ∨ ev = .overflow) →
          ∃ e p c f a, step s = .next { s with
            rxs := .pollKey, readys := rs, rxLine := bs, acc := a, accLen := 0,
            esc := e, pos := p, cur := c, frame := f })) ∧
    (s.readys = [] →
      (∃ f, step s = .next { s with rxs := .pollKey, fresh := f }) ∨
      (∃ f, step s = step { s with readys := [true], fresh := f })) ∧
    (∀ rs, s.readys = true :: rs → s.rxLine = [] →
      ∃ b f, step s = step { s with rxLine := [b], fresh := f })

/-- The byte that completes a frame (R274, R279): the handler gets the unstuffed frame, and RX_POLL
ends OK with the frame's length and the handler's result. A host handler's operations are issued
next, before what the port holds (the model's choice, log 17). -/
def Obligations.RxDelivers : Prop :=
  ∀ (s : State) (k : Nat) (l b : List Byte) (x : Byte) (rs : List Bool) (bs : List Byte),
    s.rxs = .pollRx → s.accHolds l → l.length < s.cfg.accCap → s.readys = true :: rs →
    s.rxLine = x :: bs → l ++ [x] = delims k ++ stuffed b ++ [0xC0#8] → b ≠ [] →
    b.length ≤ s.cfg.frameCap →
      (s.handler = .identity →
        ∃ e p c m a f, step s = .next { s with
          rxs := .done, readys := rs, rxLine := bs, acc := a, accLen := m, frame := f,
          esc := e, pos := p, cur := c, status := .ok, count := b.length,
          result := .handled (.identity b) }) ∧
      (s.handler = .dispatch →
        ∃ t u v, step s = .next t ∧
          exec (.dispatch b) { s with rxs := .done, readys := rs, rxLine := bs } = .next u ∧
          u.result = .verdict v ∧ t.rxs = .done ∧ t.status = .ok ∧ t.count = b.length ∧
          t.result = .handled (.dispatch v) ∧ t.tab = u.tab ∧ t.txLine = u.txLine ∧
          t.apps = u.apps ∧ t.rxLine = bs ∧ t.readys = rs ∧ t.keys = s.keys ∧
          t.port = s.port ∧ t.cfg = s.cfg ∧ t.out = s.out) ∧
      (∀ h, s.handler = .host h →
        ∃ e p c m a f g cmds r, step s = .next { s with
          rxs := .done, readys := rs, rxLine := bs, acc := a, accLen := m, frame := f,
          esc := e, pos := p, cur := c, fresh := g,
          port := (cmds : List (List Byte)).map PortItem.command ++
            .handlerReturn b.length r :: s.port })

/-- RX_POLL receives a frame (R270, R362): with no key pressed and every byte of the frame made ready
sooner or later, the loop reads exactly the frame's line bytes and returns the frame; nothing else of
the machine changes but the sequencer's and the decoder's own registers. -/
def Obligations.RxFrameRun : Prop :=
  ∀ (s : State) (k : Nat) (b bs : List Byte) (rd rs : List Bool) (ks : List Key),
    s.rxs = .done → b ≠ [] → b.length ≤ s.cfg.frameCap →
    k + (stuffed b).length + 1 ≤ s.cfg.accCap →
    s.rxLine = delims k ++ stuffed b ++ 0xC0#8 :: bs →
    s.readys = rd ++ true :: rs → rd.count true = k + (stuffed b).length →
    s.keys = List.replicate (rd.length + 1) .none ++ ks →
      ∃ t u, exec (.rxPoll .identity) s = .next t ∧ stepN (2 * (rd.length + 1)) t = .next u ∧
        ∃ e p c m a f, u = { s with
          handler := .identity, rxs := .done, readys := rs, rxLine := bs, keys := ks,
          acc := a, accLen := m, frame := f, esc := e, pos := p, cur := c,
          status := .ok, count := b.length, result := .handled (.identity b) }

/-- A held receiver stays held until it is cancelled (R352, R357): no frame is ever delivered, and no
byte is ever sent. -/
def Obligations.RxStaysHeld : Prop :=
  ∀ s : State, s.rxHeld →
    ∃ t, step s = .next t ∧ t.txLine = s.txLine ∧ t.tab = s.tab ∧
      (t.rxHeld ∨ (t.rxs = .done ∧ t.status = .interrupted))

/-! Sending. -/

/-- TX_FRAME (R285, R286): the frame's bytes appended to the outbound stream, or none at all. -/
def Obligations.TxFrameResult : Prop :=
  ∀ (input : List Byte) (s : State), s.rxs = .done →
    (frameFits s.cfg input →
      ∃ p c m, exec (.txFrame input) s = .next { s with
        encPos := p, encCur := c, txBuf := m, txLine := s.txLine ++ slipFrame input,
        status := .ok, count := input.length + 2 + specialCount input, result := .counted }) ∧
    (¬ frameFits s.cfg input →
      ∃ t p c m, exec (.txFrame input) s = .next t ∧
        State.failed { s with encPos := p, encCur := c, txBuf := m } t .outOverflow)

/-- ECHO_REPLY (R186): the reply's frame is sent when the three steps succeed, nothing otherwise. -/
def Obligations.EchoReplyResult : Prop :=
  ∀ (src dst : IP4) (identifier sequence : U16) (payload : List Byte) (s : State),
    s.rxs = .done →
      (echoFits s.cfg src dst identifier sequence payload →
        ∃ w n, s.sameButSending w ∧
          exec (.echoReply src dst identifier sequence payload) s = .next { w with
            txLine := s.txLine ++ slipFrame (echoPacket s.cfg src dst identifier sequence payload),
            status := .ok, count := n, result := .counted }) ∧
      (¬ echoFits s.cfg src dst identifier sequence payload →
        ∃ w t st, s.sameButSending w ∧ st ≠ .ok ∧
          exec (.echoReply src dst identifier sequence payload) s = .next t ∧ w.failed t st)

/-- SEND_SEG (R248): the segment's frame is sent when the three steps succeed, nothing otherwise. -/
def Obligations.SendSegResult : Prop :=
  ∀ (d : SegDesc) (s : State), s.rxs = .done →
    (segFits s.cfg d →
      ∃ w n, s.sameButSending w ∧
        exec (.sendSeg d) s = .next { w with
          txLine := s.txLine ++ slipFrame (segPacket s.cfg d),
          status := .ok, count := n, result := .counted }) ∧
    (¬ segFits s.cfg d →
      ∃ w t st, s.sameButSending w ∧ st ≠ .ok ∧ exec (.sendSeg d) s = .next t ∧ w.failed t st)

/-! The dispatcher. -/

/-- DISPATCH (R290, R293, R295): a frame that does not parse, or of another protocol, is dropped with no
state change; otherwise the branch of its protocol takes the payload slice, and a UDP datagram that
parses is reported. That the branches are instructions of their own is the model's choice (log 13). -/
def Obligations.DispatchRoutes : Prop :=
  ∀ (frame : List Byte) (s : State), s.rxs = .done →
    (frame.length < 20 →
      ∃ n f e, exec (.dispatch frame) s = .next { s with
        status := .dropped, count := n, fresh := f,
        result := .verdict { status := .dropped, cause := some .tooShort, event := e } }) ∧
    (20 ≤ frame.length →
      ((frame.length < ipHeaderLen frame ∨
          (s.cfg.ipCheckTotalLength = true ∧ frame.length < (getBE16 frame 2).toNat)) →
        ∃ n f e, exec (.dispatch frame) s = .next { s with
          status := .dropped, count := n, fresh := f,
          result := .verdict { status := .dropped, cause := some .badLength, event := e } }) ∧
      (ipHeaderLen frame ≤ frame.length →
        (s.cfg.ipCheckTotalLength = true → (getBE16 frame 2).toNat ≤ frame.length) →
        (byteAt frame 9 = 1#8 → exec (.dispatch frame) s =
          exec (.ipProtoIcmp (getIP4 frame 12) (getIP4 frame 16)
            (frame.drop (ipHeaderLen frame))) s) ∧
        (byteAt frame 9 = 17#8 → exec (.dispatch frame) s =
          exec (.ipProtoUdp (getIP4 frame 12) (getIP4 frame 16)
            (frame.drop (ipHeaderLen frame))) s) ∧
        (byteAt frame 9 = 17#8 → 8 ≤ (frame.drop (ipHeaderLen frame)).length →
          (getBE16 (frame.drop (ipHeaderLen frame)) 4).toNat ≤
            (frame.drop (ipHeaderLen frame)).length →
          8 ≤ (getBE16 (frame.drop (ipHeaderLen frame)) 4).toNat →
          ∃ n v, v.status = .ok ∧
            v.event = some (.udpRx (getIP4 frame 12) (getIP4 frame 16)
              (getBE16 (frame.drop (ipHeaderLen frame)) 0)
              (getBE16 (frame.drop (ipHeaderLen frame)) 2)
              (((frame.drop (ipHeaderLen frame)).drop 8).take
                ((getBE16 (frame.drop (ipHeaderLen frame)) 4).toNat - 8))) ∧
            exec (.dispatch frame) s = .next { s with
              status := .ok, count := n, result := .verdict v }) ∧
        (byteAt frame 9 = 6#8 → exec (.dispatch frame) s =
          exec (.ipProtoTcp (getIP4 frame 12) (getIP4 frame 16)
            (frame.drop (ipHeaderLen frame))) s) ∧
        (byteAt frame 9 ≠ 1#8 → byteAt frame 9 ≠ 6#8 → byteAt frame 9 ≠ 17#8 →
          ∃ n f e, exec (.dispatch frame) s = .next { s with
            status := .dropped, count := n, fresh := f,
            result := .verdict { status := .dropped, cause := some .dropped, event := e } })))

/-- The ICMP branch (R292; an instruction by the model's choice, log 13): dropped if it does not parse
or is neither a request nor a reply; else the action of its type takes the message's fields. -/
def Obligations.IcmpBranchResult : Prop :=
  ∀ (src dst : IP4) (p : List Byte) (s : State), s.rxs = .done →
    (p.length < 8 →
      ∃ n f e, exec (.ipProtoIcmp src dst p) s = .next { s with
        status := .dropped, count := n, fresh := f,
        result := .verdict { status := .dropped, cause := some .tooShort, event := e } }) ∧
    (8 ≤ p.length →
      (byteAt p 0 = 8#8 → exec (.ipProtoIcmp src dst p) s =
        exec (.icmpEchoRequest src dst (getBE16 p 4) (getBE16 p 6) (p.drop 8)) s) ∧
      (byteAt p 0 = 0#8 → exec (.ipProtoIcmp src dst p) s =
        exec (.icmpEchoReply src (getBE16 p 4) (getBE16 p 6) (p.drop 8)) s) ∧
      (byteAt p 0 = 0#8 →
        ∃ n v, v.status = .ok ∧
          v.event = some (.echoReplyRx src (getBE16 p 4) (getBE16 p 6) (p.drop 8)) ∧
          exec (.ipProtoIcmp src dst p) s = .next { s with
            status := .ok, count := n, result := .verdict v }) ∧
      (byteAt p 0 ≠ 8#8 → byteAt p 0 ≠ 0#8 →
        ∃ n f c e, exec (.ipProtoIcmp src dst p) s = .next { s with
          status := .dropped, count := n, fresh := f,
          result := .verdict { status := .dropped, cause := c, event := e } }))

/-- The dispatcher's actions on an Echo Request and on an Echo Reply (R292; instructions by the model's
choice, log 13): the request is answered with ECHO_REPLY's frame, or dropped with nothing sent; the reply
is reported, with nothing sent. -/
def Obligations.EchoActions : Prop :=
  ∀ (src dst : IP4) (identifier sequence : U16) (payload : List Byte) (s : State),
    s.rxs = .done →
      (echoFits s.cfg src dst identifier sequence payload →
        ∃ w n v, s.sameButSending w ∧ v.status = .ok ∧
          exec (.icmpEchoRequest src dst identifier sequence payload) s = .next { w with
            txLine := s.txLine ++ slipFrame (echoPacket s.cfg src dst identifier sequence payload),
            status := .ok, count := n, result := .verdict v }) ∧
      (¬ echoFits s.cfg src dst identifier sequence payload →
        ∃ w n f v, s.sameButSending w ∧ v.status = .dropped ∧
          exec (.icmpEchoRequest src dst identifier sequence payload) s = .next { w with
            status := .dropped, count := n, fresh := f, result := .verdict v }) ∧
      (∃ n v, v.status = .ok ∧
        v.event = some (.echoReplyRx src identifier sequence payload) ∧
        exec (.icmpEchoReply src identifier sequence payload) s = .next { s with
          status := .ok, count := n, result := .verdict v })

/-- The UDP branch (R293; an instruction by the model's choice, log 13): dropped if it does not parse,
else reported; nothing is transmitted. -/
def Obligations.UdpBranchResult : Prop :=
  ∀ (src dst : IP4) (p : List Byte) (s : State), s.rxs = .done →
    (p.length < 8 →
      ∃ n f e, exec (.ipProtoUdp src dst p) s = .next { s with
        status := .dropped, count := n, fresh := f,
        result := .verdict { status := .dropped, cause := some .tooShort, event := e } }) ∧
    (8 ≤ p.length →
      (p.length < (getBE16 p 4).toNat ∨ (getBE16 p 4).toNat < 8 →
        ∃ n f e, exec (.ipProtoUdp src dst p) s = .next { s with
          status := .dropped, count := n, fresh := f,
          result := .verdict { status := .dropped, cause := some .badLength, event := e } }) ∧
      ((getBE16 p 4).toNat ≤ p.length → 8 ≤ (getBE16 p 4).toNat →
        ∃ n v, v.status = .ok ∧
          v.event = some (.udpRx src dst (getBE16 p 0) (getBE16 p 2)
            ((p.drop 8).take ((getBE16 p 4).toNat - 8))) ∧
          exec (.ipProtoUdp src dst p) s = .next { s with
            status := .ok, count := n, result := .verdict v }))

/-- The TCP branch (R294, R248): TCP_SEG_IN's table update, then the frames of its descriptors in
order, those that can be built; or dropped with TCP_SEG_IN's cause and nothing sent. The reply data is
the next listed answer of APP, or where none is listed some answer (the model's choice, log 18). That
the branch is an instruction is the model's choice (log 13), and so are the capacities of the inner
buffers (log 5). -/
def Obligations.TcpBranchResult : Prop :=
  ∀ (src dst : IP4) (p : List Byte) (s : State), s.rxs = .done →
    (p.length < 20 →
      ∃ n f e, exec (.ipProtoTcp src dst p) s = .next { s with
        status := .dropped, count := n, fresh := f,
        result := .verdict { status := .dropped, cause := some .tooShort, event := e } }) ∧
    (20 ≤ p.length → p.length < tcpHeaderLen p →
      ∃ n f e, exec (.ipProtoTcp src dst p) s = .next { s with
        status := .dropped, count := n, fresh := f,
        result := .verdict { status := .dropped, cause := some .badLength, event := e } }) ∧
    (20 ≤ p.length → tcpHeaderLen p ≤ p.length →
      (∀ a as, s.apps = a :: as → s.tcpBranchEnds src dst p a as) ∧
      (s.apps = [] → ∃ a, s.tcpBranchEnds src dst p a []))

/-! Symbols and reserved codes. -/

/-- The SLIP symbol rows (R81, R84): END is skipped and ESC opens a symbol (INCOMPLETE); ESC_END and
ESC_ESC put their data byte, and a byte that is neither is a BAD_ESCAPE. Each is SLIP_DEC of its own
bytes into a buffer of FRAME_CAP bytes, whatever the registers held before. That a row is an operation is
the model's choice (log 12). -/
def Obligations.SlipSymbolSteps : Prop :=
  ∀ s : State, s.rxs = .done →
    (∀ i : Instr, i ∈ [Instr.slipEnd, .slipEsc] →
      ∃ t e p c, exec i s = .next t ∧
        State.failedInto { s with esc := e, pos := p, cur := c } t .incomplete) ∧
    (∀ i : Instr, i ∈ [Instr.slipEscEnd, .slipEscEsc] →
      ∃ t e p c, exec i s = .next t ∧
        State.failedInto { s with esc := e, pos := p, cur := c } t
          (if s.cfg.frameCap = 0 then .outOverflow else .incomplete)) ∧
    (∀ b : Byte, b ≠ 0xDC#8 → b ≠ 0xDD#8 →
      ∃ t e p c, exec (.slipInvalid b) s = .next t ∧
        State.failedInto { s with esc := e, pos := p, cur := c } t .badEscape) ∧
    ∀ (i : Instr) (line : List Byte), slipSymbolLine i = some line →
      exec i s = exec (.slipDec line { cap := s.cfg.frameCap, overlaps := false }) s

/-- The off_flags symbol rows (R93, R94): each tells whether its bits are present in the word (the
model's reading of a symbol row, log 14). -/
def Obligations.TcpSymbolsPresent : Prop :=
  ∀ (w : U16) (s : State), s.rxs = .done →
    (∀ (i : Instr) (k : Nat),
      (i, k) ∈ [(Instr.tcpFin w, 0), (.tcpSyn w, 1), (.tcpRst w, 2), (.tcpPsh w, 3),
        (.tcpAck w, 4)] →
      ∃ n, exec i s = .next { s with
        status := .ok, count := n, result := .present (w.getLsbD k) }) ∧
    ∃ n, exec (.tcpDataOffset5 w) s = .next { s with
      status := .ok, count := n, result := .present (decide ((w >>> 12).toNat = 5)) }

/-- A reserved code yields ILLEGAL_OP, writes nothing and changes no state (R112). -/
def Obligations.ReservedCodes : Prop :=
  ∀ (i : Instr) (s : State), s.rxs = .done →
    i ∈ [Instr.reserved11, .reserved12, .reserved13, .reserved14, .reserved15, .reserved16,
      .reserved17, .reserved18, .reserved19, .reserved1A, .reserved1B, .reserved1C, .reserved1D,
      .reserved1E, .reserved1F] →
    ∃ t, exec i s = .next t ∧ s.failed t .illegalOp

/-! The machine. -/

/-- A step runs the decoded instruction (R61). The model's choices: the port's form (log 1 and 2), the
refusal of a packet that is no instruction and the padding after the operands (log 23), and the packet of
a table word (log 3). -/
def Obligations.StepRunsDecoded : Prop :=
  (∀ (s : State) (packet pad : List Byte) (rest : List PortItem) (i : Instr), s.rxs = .done →
    s.port = .command packet :: rest → decode packet = .ok (i, pad) →
      step s = exec i { s with port := rest }) ∧
  (∀ (s : State) (packet : List Byte) (rest : List PortItem) (e : DecodeError), s.rxs = .done →
    s.port = .command packet :: rest → decode packet = .error e →
      step s = .refused (.undecodable e)) ∧
  (∀ (s : State) (nbits w : Nat) (i : Instr), decodeTableWord nbits w = some i →
    step (s.withFetchWord nbits w) = exec i { s with rxs := .done })

/-- At an operation boundary: idle with nothing issued (R342), reset (R340, R341), the return of a
host handler (R279; the model's choice, log 17). -/
def Obligations.BoundarySteps : Prop :=
  ∀ s : State, s.rxs = .done →
    (s.port = [] → step s = .next s) ∧
    (∀ rest, s.port = .reset :: rest →
      ∃ a f x o, step s = .next { s with
        port := rest, tab := List.replicate s.cfg.tableCap none, acc := a, frame := f, txBuf := x,
        out := o }) ∧
    (∀ rest n r, s.port = .handlerReturn n r :: rest →
      step s = .next { s with
        port := rest, status := .ok, count := n, result := .handled (.host r) })

/-- Reset leaves every slot EMPTY and the constants at their configured values (R38, R26). -/
def Obligations.ResetTable : Prop :=
  ∀ p : Config.Params, (State.resetWith p).cfg = p ∧ (State.resetWith p).tab.length = p.tableCap ∧
    ∀ k, k < p.tableCap → (State.resetWith p).tab[k]? = some none

/-- The invariant holds at reset. -/
def Obligations.ResetInv : Prop := State.reset.Inv

/-- What the spec says a model refuses: an operation while another is in progress (R62), overlapping
buffers (R58). -/
def Obligations.BusyAndOverlapRefused : Prop :=
  (∀ (i : Instr) (s : State), s.rxs ≠ .done → exec i s = .refused .operationInProgress) ∧
  (∀ (s : State) (ob : OutBuf), s.rxs = .done → ob.overlaps = true →
    (∀ input, exec (.slipEnc input ob) s = .refused .bufferOverlap) ∧
    (∀ input, exec (.slipDec input ob) s = .refused .bufferOverlap) ∧
    (∀ a b p l, exec (.ipBuild a b p l ob) s = .refused .bufferOverlap) ∧
    (∀ y a b l, exec (.icmpBuild y a b l ob) s = .refused .bufferOverlap) ∧
    (∀ a b p q l, exec (.udpBuild a b p q l ob) s = .refused .bufferOverlap) ∧
    (∀ p q x y f w l a b, exec (.tcpBuild p q x y f w l a b ob) s = .refused .bufferOverlap))

/-- Every step keeps the invariant: the table's size and unique keys (R24, R246), the states of R244,
the buffers' form, the bound of acc_len and the defined bytes of ACC below it (R30). -/
def Obligations.StepKeepsInv : Prop :=
  ∀ s t : State, s.Inv → step s = .next t → t.Inv

/-- No operation writes the configuration constants (R26). -/
def Obligations.StepKeepsConfig : Prop :=
  ∀ s t : State, step s = .next t → t.cfg = s.cfg

/-- Who writes the transport and the table (R326, R303, R51): only TX_FRAME and what contains it
writes to the line, and only appends; only an inbound segment or TCP_CLOSE changes the table; a
failure leaves the table as it was, but for the reclaim of a segment. -/
def Obligations.OnlyTheseWrite : Prop :=
  ∀ (i : Instr) (s t : State), exec i s = .next t →
    (∃ sent, t.txLine = s.txLine ++ sent) ∧ (transmits i = false → t.txLine = s.txLine) ∧
    (takesSegment i = false → closes i = false → t.tab = s.tab) ∧
    ((∀ h, i ≠ .rxPoll h) → t.status ≠ .ok →
      t.tab = s.tab ∨ (takesSegment i = true ∧ t.tab = reclaimed s.tab))

/-- Every instruction ends with one of the statuses of R302 and R112. The model's choices: the statuses
of ECHO_REPLY and SEND_SEG issued alone (log 22) and those of the symbol rows (logs 12, 13, 14), which
neither rule lists. -/
def Obligations.StatusAllowed : Prop :=
  ∀ (i : Instr) (s t : State), (∀ h, i ≠ .rxPoll h) → exec i s = .next t → t.status ∈ statusesOf i

/-! The encoding. -/

/-- Decoding what the encoder wrote gives the instruction back, whatever bytes follow. -/
def Obligations.DecodeEncode : Prop :=
  ∀ (i : Instr) (pad : List Byte), i.wf = true → decode (encode i ++ pad) = .ok (i, pad)

/-- Every packet the decoder accepts is the encoding of a well-formed instruction and the bytes after
it: no bit is dropped and no two packets mean one instruction. -/
def Obligations.DecodeCanonical : Prop :=
  ∀ (packet pad : List Byte) (i : Instr), decode packet = .ok (i, pad) →
    i.wf = true ∧ packet = encode i ++ pad

/-- The select bytes of R110, R112 and R81 on written-out words. -/
def Obligations.DecodeWords : Prop :=
  decodeTableWord 8 0x02 = some (.csum []) ∧ decodeTableWord 8 0x0E = some (.tcpClose 0) ∧
    decodeTableWord 8 0x10 = some (.txFrame []) ∧ decodeTableWord 8 0x11 = some .reserved11 ∧
    decodeTableWord 8 0x1F = some .reserved1F ∧
    decodeTableWord 8 0xC0 = some .slipEnd ∧
    decodeTableWord 8 0xDB = some .slipEsc ∧
    decodeTableWord 16 0x5000 = some (.tcpDataOffset5 0x5000#16) ∧
    decode [0x0C#8, 0x50#8, 0x12#8] = .ok (.tcpFlags 0x5012#16, [])

end
end

