-- ==== Sys2Proof/Laws/Checksum.lean ====
section
/-! SUPPORT. What the checksum pipeline's loops do, once (spec/41_checksum.md R150 to R152): the word
sum over a concatenation, and the value folding leaves. -/

namespace Sys2Proof.Machine

@[simp] theorem wordSum_nil : wordSum [] = 0 := rfl

@[simp] theorem wordSum_pair (a b : Byte) (bs : List Byte) :
    wordSum (a :: b :: bs) = a.toNat * 256 + b.toNat + wordSum bs := rfl

/-- An even-length block adds its own sum (R151, R157). -/
theorem wordSum_append {p : List Byte} (q : List Byte) (h : p.length % 2 = 0) :
    wordSum (p ++ q) = wordSum p + wordSum q := by
  induction p using wordSum.induct with
  | case1 => simp
  | case2 a => simp at h
  | case3 a b p ih =>
    simp only [List.length_cons] at h
    simp [ih (by omega), Nat.add_assoc]

/-- A word field adds its value (R12, R151). -/
theorem wordSum_be16 (v : U16) : wordSum (be16 v) = v.toNat := by
  simp [be16, wordSum]
  omega

theorem and_mask16 (n : Nat) : n &&& 0xFFFF = n % 65536 := Nat.and_two_pow_sub_one_eq_mod n 16

/-- Folding leaves a total at most 0xFFFF as it is (R152). -/
theorem foldedValue_small {n : Nat} (h : n ≤ 0xFFFF) : foldedValue n = n := by
  unfold foldedValue
  split <;> omega

/-- One pass keeps the folded value (R152). -/
theorem foldedValue_pass {n : Nat} (h : 0xFFFF < n) :
    foldedValue (n % 65536 + n / 65536) = foldedValue n := by
  have h1 : (n % 65536 + n / 65536) % 65535 = n % 65535 := by omega
  have h2 : n % 65536 + n / 65536 ≠ 0 := by omega
  have h3 : n ≠ 0 := by omega
  simp only [foldedValue, h1, h2, h3, ne_eq, not_false_eq_true, and_true]

theorem foldedValue_le (n : Nat) : foldedValue n ≤ 0xFFFF := by
  unfold foldedValue
  split <;> omega

/-- The folding loop ends with the folded value (R152). -/
theorem foldCarries_eq {passes n : Nat} (h : n ≤ passes) :
    foldCarries passes n = foldedValue n := by
  induction passes generalizing n with
  | zero => rw [foldCarries, foldedValue_small (by omega)]
  | succ passes ih =>
    rw [foldCarries, and_mask16, Nat.shiftRight_eq_div_pow]
    split
    · rw [ih (by omega), foldedValue_pass ‹_›]
    · rw [foldedValue_small (by omega)]

/-- The register `sum` when CSUM ends (R150, R152). -/
theorem csumSum_eq (input : List Byte) : csumSum input = foldedValue (wordSum input) :=
  foldCarries_eq (Nat.le_refl _)

/-- The checksum as a number: `0xFFFF - sum` (R153). -/
theorem csum_toNat (input : List Byte) :
    (csum input).toNat = 0xFFFF - foldedValue (wordSum input) := by
  have := foldedValue_le (wordSum input)
  simp only [csum, csumSum_eq, BitVec.toNat_not, BitVec.toNat_ofNat]
  omega

@[simp] theorem length_be16 (v : U16) : (be16 v).length = 2 := rfl
@[simp] theorem length_be32 (v : U32) : (be32 v).length = 4 := rfl
@[simp] theorem length_ip4 (ip : IP4) : ip.bytes.length = 4 := rfl

@[simp] theorem length_patch16 (bs : List Byte) (i : Nat) (v : U16) :
    (patch16 bs i v).length = bs.length := by simp [patch16]

end Sys2Proof.Machine
end

