-- ==== Sys2Proof/Laws/Decode.lean ====
section
/-! SUPPORT. Each reader of an operand undoes its writer, whatever bytes follow. -/

namespace Sys2Proof

/-- Reading continues with the value read. -/
@[simp] theorem Read.bind_ok {α β : Type} (a : α) (f : α → Read β) :
    ((Except.ok a : Read α) >>= f) = f a := rfl

@[simp] theorem readU8_put (b : Byte) (r : List Byte) : readU8 (b :: r) = .ok (b, r) := rfl

@[simp] theorem readU16_put (v : U16) (r : List Byte) :
    readU16 (Machine.be16 v ++ r) = .ok (v, r) := by
  have h : v.extractLsb' 8 8 ++ v.extractLsb' 0 8 = v := by
    ext i hi
    simp only [BitVec.getElem_append, BitVec.getElem_extractLsb']
    split
    · simp [hi]
    · rw [show 8 + (i - 8) = i by omega]
      simp [hi]
  simp [Machine.be16, readU16, h]

@[simp] theorem readU32_put (v : U32) (r : List Byte) :
    readU32 (Machine.be32 v ++ r) = .ok (v, r) := by
  have h : (v.extractLsb' 24 8 ++ v.extractLsb' 16 8) ++
      (v.extractLsb' 8 8 ++ v.extractLsb' 0 8) = v := by
    ext i hi
    simp only [BitVec.getElem_append, BitVec.getElem_extractLsb']
    split
    · split
      · simp [hi]
      · rw [show 8 + (i - 8) = i by omega]
        simp [hi]
    · split
      · rw [show 16 + (i - 16) = i by omega]
        simp [hi]
      · rw [show 24 + (i - 16 - 8) = i by omega]
        simp [hi]
  simp [Machine.be32, readU32, h]

@[simp] theorem readIP4_put (ip : IP4) (r : List Byte) :
    readIP4 (ip.bytes ++ r) = .ok (ip, r) := rfl

theorem readNat_put {n : Nat} (h : natFits n = true) (r : List Byte) :
    readNat (putNat n ++ r) = .ok (n, r) := by
  have hn : n % 4294967296 = n := Nat.mod_eq_of_lt (by simpa [natFits] using h)
  simp [readNat, putNat, hn]

theorem readBytes_put {bs : List Byte} (h : bytesFit bs = true) (r : List Byte) :
    readBytes (putBytes bs ++ r) = .ok (bs, r) := by
  simp [readBytes, putBytes, readNat_put (n := bs.length) h]

@[simp] theorem readFlags9_put (f : BitVec 9) (r : List Byte) :
    readFlags9 (putFlags9 f ++ r) = .ok (f, r) := by
  have h : f.toNat < 512 := f.isLt
  have h2 : (f.setWidth 16).setWidth 9 = f := by
    ext i hi
    simp
  simp [readFlags9, putFlags9, Nat.mod_eq_of_lt (show f.toNat < 65536 by omega), h, h2]

theorem readOutBuf_put {ob : OutBuf} (h : natFits ob.cap = true) (r : List Byte) :
    readOutBuf (putOutBuf ob ++ r) = .ok (ob, r) := by
  obtain ⟨cap, o⟩ := ob
  cases o <;> simp [readOutBuf, putOutBuf, readNat_put (n := cap) h]

theorem readHandler_put {hd : Handler} (h : hd.wf = true) (r : List Byte) :
    readHandler (putHandler hd ++ r) = .ok (hd, r) := by
  cases hd with
  | dispatch => rfl
  | identity => rfl
  | host b =>
    have hb : 2 ≤ b.toNat := by simpa [Handler.wf] using h
    have h0 : b ≠ 0x00#8 := by
      rintro rfl
      exact absurd hb (by decide)
    have h1 : b ≠ 0x01#8 := by
      rintro rfl
      exact absurd hb (by decide)
    simp [readHandler, putHandler, h0, h1]

@[simp] theorem readTcpHdr_put (hdr : TcpHdr) (r : List Byte) :
    readTcpHdr (putTcpHdr hdr ++ r) = .ok (hdr, r) := by
  simp [readTcpHdr, putTcpHdr]

theorem readSegDesc_put {d : SegDesc} (h : bytesFit d.payload = true) (r : List Byte) :
    readSegDesc (putSegDesc d ++ r) = .ok (d, r) := by
  simp [readSegDesc, putSegDesc, readBytes_put (bs := d.payload) h]

theorem readInvalid_put {b : Byte} (h : invalidAfterEsc b = true) (r : List Byte) :
    readInvalid (b :: r) = .ok (b, r) := by
  simp [readInvalid, h]

end Sys2Proof
end

