-- ==== Sys2Proof/Laws/Flags.lean ====
section
/-! SUPPORT. The flag Booleans of TCP_FLAGS against the bits of the word (spec/30_encoding.md R94,
spec/46_tcp_fsm.md R226). -/

namespace Sys2Proof.Machine

/-- The nine-bit mask hides no flag bit it contains. -/
theorem bitSet_flags {w m : U16} (h : maskFlags &&& m = m) :
    bitSet (w &&& maskFlags) m = true ↔ w &&& m ≠ 0#16 := by
  rw [bitSet, BitVec.and_assoc, h]
  simp

theorem tcpFlagsOf_ack (w : U16) : (tcpFlagsOf w).ack = true ↔ isAck w :=
  bitSet_flags (by decide)

theorem tcpFlagsOf_fin (w : U16) : (tcpFlagsOf w).fin = true ↔ isFin w :=
  bitSet_flags (by decide)

/-- "SYN, !ACK" (R226). -/
theorem tcpFlagsOf_synOnly (w : U16) :
    ((tcpFlagsOf w).syn && !(tcpFlagsOf w).ack) = true ↔ isSynOnly w := by
  rw [Bool.and_eq_true, Bool.not_eq_true', ← Bool.not_eq_true, tcpFlagsOf_ack]
  unfold isAck isSynOnly
  rw [ne_eq, not_not]
  exact and_congr_left' (bitSet_flags (by decide))

end Sys2Proof.Machine
end

