-- ==== Sys2Proof/Laws/Memory.lean ====
section
/-! SUPPORT. What reading, writing and laying out a buffer do (spec/20_memory.md R50, R56), and that
every buffer operation keeps the canonical form. -/

namespace Sys2Proof.Machine

@[simp] theorem Memory.read_nil (a : Nat) : Memory.read [] a = none := rfl

@[simp] theorem Memory.wf_nil : Memory.wf [] = true := rfl

theorem Memory.risingFrom_mono {m : Memory} {lo lo' : Nat} (h : lo' ≤ lo)
    (hm : Memory.risingFrom m lo = true) : Memory.risingFrom m lo' = true := by
  cases m with
  | nil => rfl
  | cons c m =>
    simp only [Memory.risingFrom, Bool.and_eq_true, decide_eq_true_eq] at hm ⊢
    exact ⟨by omega, hm.2⟩

/-- Below its least index a buffer has no defined byte. -/
theorem Memory.read_below {m : Memory} {lo a : Nat} (hm : Memory.risingFrom m lo = true)
    (h : a < lo) : Memory.read m a = none := by
  induction m generalizing lo with
  | nil => rfl
  | cons c m ih =>
    simp only [Memory.risingFrom, Bool.and_eq_true, decide_eq_true_eq] at hm
    simp only [Memory.read]
    rw [if_neg (by omega)]
    exact ih (Memory.risingFrom_mono (by omega) hm.2) h

theorem Memory.risingFrom_write {m : Memory} {lo a : Nat} (v : Byte)
    (hm : Memory.risingFrom m lo = true) (ha : lo ≤ a) :
    Memory.risingFrom (Memory.write m a v) lo = true := by
  induction m generalizing lo with
  | nil => simp [Memory.write, Memory.risingFrom, ha]
  | cons c m ih =>
    simp only [Memory.risingFrom, Bool.and_eq_true, decide_eq_true_eq] at hm
    simp only [Memory.write]
    split
    · simp only [Memory.risingFrom, Bool.and_eq_true, decide_eq_true_eq]
      exact ⟨ha, by omega, hm.2⟩
    · split
      · rename_i h
        subst h
        simp only [Memory.risingFrom, Bool.and_eq_true, decide_eq_true_eq]
        exact ⟨ha, hm.2⟩
      · simp only [Memory.risingFrom, Bool.and_eq_true, decide_eq_true_eq]
        exact ⟨hm.1, ih hm.2 (by omega)⟩

/-- A write keeps the canonical form. -/
theorem Memory.wf_write {m : Memory} (a : Nat) (v : Byte) (hm : Memory.wf m = true) :
    Memory.wf (Memory.write m a v) = true :=
  Memory.risingFrom_write v hm (Nat.zero_le a)

/-- A read after a write to the same index gives the byte written. -/
@[simp] theorem Memory.read_write_same (m : Memory) (a : Nat) (v : Byte) :
    Memory.read (Memory.write m a v) a = some v := by
  induction m with
  | nil => simp [Memory.write, Memory.read]
  | cons c m ih =>
    simp only [Memory.write]
    split
    · simp [Memory.read]
    · split
      · simp [Memory.read]
      · simp only [Memory.read]
        rw [if_neg (by omega)]
        exact ih

/-- A write leaves every other index alone. -/
theorem Memory.read_write_other (m : Memory) {a b : Nat} (v : Byte) (h : b ≠ a) :
    Memory.read (Memory.write m a v) b = Memory.read m b := by
  induction m with
  | nil => simp [Memory.write, Memory.read, Ne.symm h]
  | cons c m ih =>
    simp only [Memory.write]
    split
    · simp only [Memory.read]
      rw [if_neg (Ne.symm h)]
    · split
      · rename_i h'
        subst h'
        simp [Memory.read, Ne.symm h]
      · simp only [Memory.read, ih]

theorem Memory.risingFrom_cellsFrom (k : Nat) (bs : List Byte) :
    Memory.risingFrom (Memory.cellsFrom k bs) k = true := by
  induction bs generalizing k with
  | nil => rfl
  | cons b bs ih => simp [Memory.cellsFrom, Memory.risingFrom, ih]

/-- A laid-out byte sequence is in canonical form. -/
@[simp] theorem Memory.wf_ofBytes (bs : List Byte) : Memory.wf (Memory.ofBytes bs) = true :=
  Memory.risingFrom_cellsFrom 0 bs

theorem Memory.read_cellsFrom (k : Nat) (bs : List Byte) (i : Nat) :
    Memory.read (Memory.cellsFrom k bs) (k + i) = bs[i]? := by
  induction bs generalizing k i with
  | nil => simp [Memory.cellsFrom]
  | cons b bs ih =>
    cases i with
    | zero => simp [Memory.cellsFrom, Memory.read]
    | succ i =>
      simp only [Memory.cellsFrom, Memory.read, List.getElem?_cons_succ]
      rw [if_neg (by omega), show k + (i + 1) = k + 1 + i by omega]
      exact ih (k + 1) i

/-- The defined bytes of a laid-out byte sequence are its bytes. -/
@[simp] theorem Memory.read_ofBytes (bs : List Byte) (i : Nat) :
    Memory.read (Memory.ofBytes bs) i = bs[i]? := by
  simpa [Memory.ofBytes] using Memory.read_cellsFrom 0 bs i

theorem Memory.write_cellsFrom (k : Nat) (bs : List Byte) (v : Byte) :
    Memory.write (Memory.cellsFrom k bs) (k + bs.length) v =
      Memory.cellsFrom k (bs ++ [v]) := by
  induction bs generalizing k with
  | nil => simp [Memory.cellsFrom, Memory.write]
  | cons b bs ih =>
    simp only [Memory.cellsFrom, Memory.write, List.length_cons, List.cons_append]
    rw [if_neg (by omega), if_neg (by omega),
      show k + (bs.length + 1) = k + 1 + bs.length by omega, ih]

/-- Writing the next index appends a byte. -/
theorem Memory.write_ofBytes_end (bs : List Byte) (v : Byte) :
    Memory.write (Memory.ofBytes bs) bs.length v = Memory.ofBytes (bs ++ [v]) := by
  simpa [Memory.ofBytes] using Memory.write_cellsFrom 0 bs v

@[simp] theorem Memory.bytes_length (stamp : Nat) (m : Memory) (n : Nat) :
    (Memory.bytes stamp m n).length = n := by simp [Memory.bytes]

/-- Reading back a laid-out byte sequence gives it. -/
@[simp] theorem Memory.bytes_ofBytes (stamp : Nat) (bs : List Byte) :
    Memory.bytes stamp (Memory.ofBytes bs) bs.length = bs := by
  apply List.ext_getElem
  · simp
  · intro i h1 h2
    simp [Memory.bytes, Memory.byteOr, h2]

end Sys2Proof.Machine
end

