-- ==== Sys2Proof/Laws/State.lean ====
section
/-! SUPPORT. One lemma per field per update of the state, true by rfl, for the updates whose effect
is not read off a record update where it stands. -/

namespace Sys2Proof.Machine

@[simp] theorem State.complete_cfg (s : State) (n : Nat) (r : Result) : (s.complete n r).cfg = s.cfg := rfl
@[simp] theorem State.complete_tab (s : State) (n : Nat) (r : Result) : (s.complete n r).tab = s.tab := rfl
@[simp] theorem State.complete_rxs (s : State) (n : Nat) (r : Result) : (s.complete n r).rxs = s.rxs := rfl
@[simp] theorem State.complete_handler (s : State) (n : Nat) (r : Result) : (s.complete n r).handler = s.handler := rfl
@[simp] theorem State.complete_acc (s : State) (n : Nat) (r : Result) : (s.complete n r).acc = s.acc := rfl
@[simp] theorem State.complete_accLen (s : State) (n : Nat) (r : Result) : (s.complete n r).accLen = s.accLen := rfl
@[simp] theorem State.complete_frame (s : State) (n : Nat) (r : Result) : (s.complete n r).frame = s.frame := rfl
@[simp] theorem State.complete_esc (s : State) (n : Nat) (r : Result) : (s.complete n r).esc = s.esc := rfl
@[simp] theorem State.complete_pos (s : State) (n : Nat) (r : Result) : (s.complete n r).pos = s.pos := rfl
@[simp] theorem State.complete_cur (s : State) (n : Nat) (r : Result) : (s.complete n r).cur = s.cur := rfl
@[simp] theorem State.complete_encPos (s : State) (n : Nat) (r : Result) : (s.complete n r).encPos = s.encPos := rfl
@[simp] theorem State.complete_encCur (s : State) (n : Nat) (r : Result) : (s.complete n r).encCur = s.encCur := rfl
@[simp] theorem State.complete_sum (s : State) (n : Nat) (r : Result) : (s.complete n r).sum = s.sum := rfl
@[simp] theorem State.complete_txBuf (s : State) (n : Nat) (r : Result) : (s.complete n r).txBuf = s.txBuf := rfl
@[simp] theorem State.complete_status (s : State) (n : Nat) (r : Result) : (s.complete n r).status = .ok := rfl
@[simp] theorem State.complete_count (s : State) (n : Nat) (r : Result) : (s.complete n r).count = n := rfl
@[simp] theorem State.complete_out (s : State) (n : Nat) (r : Result) : (s.complete n r).out = s.out := rfl
@[simp] theorem State.complete_result (s : State) (n : Nat) (r : Result) : (s.complete n r).result = r := rfl
@[simp] theorem State.complete_keys (s : State) (n : Nat) (r : Result) : (s.complete n r).keys = s.keys := rfl
@[simp] theorem State.complete_readys (s : State) (n : Nat) (r : Result) : (s.complete n r).readys = s.readys := rfl
@[simp] theorem State.complete_rxLine (s : State) (n : Nat) (r : Result) : (s.complete n r).rxLine = s.rxLine := rfl
@[simp] theorem State.complete_txLine (s : State) (n : Nat) (r : Result) : (s.complete n r).txLine = s.txLine := rfl
@[simp] theorem State.complete_apps (s : State) (n : Nat) (r : Result) : (s.complete n r).apps = s.apps := rfl
@[simp] theorem State.complete_port (s : State) (n : Nat) (r : Result) : (s.complete n r).port = s.port := rfl
@[simp] theorem State.complete_fresh (s : State) (n : Nat) (r : Result) : (s.complete n r).fresh = s.fresh := rfl

@[simp] theorem State.completeInto_cfg (s : State) (bs : List Byte) (r : Result) : (s.completeInto bs r).cfg = s.cfg := rfl
@[simp] theorem State.completeInto_tab (s : State) (bs : List Byte) (r : Result) : (s.completeInto bs r).tab = s.tab := rfl
@[simp] theorem State.completeInto_rxs (s : State) (bs : List Byte) (r : Result) : (s.completeInto bs r).rxs = s.rxs := rfl
@[simp] theorem State.completeInto_handler (s : State) (bs : List Byte) (r : Result) : (s.completeInto bs r).handler = s.handler := rfl
@[simp] theorem State.completeInto_acc (s : State) (bs : List Byte) (r : Result) : (s.completeInto bs r).acc = s.acc := rfl
@[simp] theorem State.completeInto_accLen (s : State) (bs : List Byte) (r : Result) : (s.completeInto bs r).accLen = s.accLen := rfl
@[simp] theorem State.completeInto_frame (s : State) (bs : List Byte) (r : Result) : (s.completeInto bs r).frame = s.frame := rfl
@[simp] theorem State.completeInto_esc (s : State) (bs : List Byte) (r : Result) : (s.completeInto bs r).esc = s.esc := rfl
@[simp] theorem State.completeInto_pos (s : State) (bs : List Byte) (r : Result) : (s.completeInto bs r).pos = s.pos := rfl
@[simp] theorem State.completeInto_cur (s : State) (bs : List Byte) (r : Result) : (s.completeInto bs r).cur = s.cur := rfl
@[simp] theorem State.completeInto_encPos (s : State) (bs : List Byte) (r : Result) : (s.completeInto bs r).encPos = s.encPos := rfl
@[simp] theorem State.completeInto_encCur (s : State) (bs : List Byte) (r : Result) : (s.completeInto bs r).encCur = s.encCur := rfl
@[simp] theorem State.completeInto_sum (s : State) (bs : List Byte) (r : Result) : (s.completeInto bs r).sum = s.sum := rfl
@[simp] theorem State.completeInto_txBuf (s : State) (bs : List Byte) (r : Result) : (s.completeInto bs r).txBuf = s.txBuf := rfl
@[simp] theorem State.completeInto_status (s : State) (bs : List Byte) (r : Result) : (s.completeInto bs r).status = .ok := rfl
@[simp] theorem State.completeInto_count (s : State) (bs : List Byte) (r : Result) : (s.completeInto bs r).count = bs.length := rfl
@[simp] theorem State.completeInto_out (s : State) (bs : List Byte) (r : Result) : (s.completeInto bs r).out = Memory.ofBytes bs := rfl
@[simp] theorem State.completeInto_result (s : State) (bs : List Byte) (r : Result) : (s.completeInto bs r).result = r := rfl
@[simp] theorem State.completeInto_keys (s : State) (bs : List Byte) (r : Result) : (s.completeInto bs r).keys = s.keys := rfl
@[simp] theorem State.completeInto_readys (s : State) (bs : List Byte) (r : Result) : (s.completeInto bs r).readys = s.readys := rfl
@[simp] theorem State.completeInto_rxLine (s : State) (bs : List Byte) (r : Result) : (s.completeInto bs r).rxLine = s.rxLine := rfl
@[simp] theorem State.completeInto_txLine (s : State) (bs : List Byte) (r : Result) : (s.completeInto bs r).txLine = s.txLine := rfl
@[simp] theorem State.completeInto_apps (s : State) (bs : List Byte) (r : Result) : (s.completeInto bs r).apps = s.apps := rfl
@[simp] theorem State.completeInto_port (s : State) (bs : List Byte) (r : Result) : (s.completeInto bs r).port = s.port := rfl
@[simp] theorem State.completeInto_fresh (s : State) (bs : List Byte) (r : Result) : (s.completeInto bs r).fresh = s.fresh := rfl

@[simp] theorem State.raise_cfg (s : State) (st : Status) : (s.raise st).cfg = s.cfg := rfl
@[simp] theorem State.raise_tab (s : State) (st : Status) : (s.raise st).tab = s.tab := rfl
@[simp] theorem State.raise_rxs (s : State) (st : Status) : (s.raise st).rxs = s.rxs := rfl
@[simp] theorem State.raise_handler (s : State) (st : Status) : (s.raise st).handler = s.handler := rfl
@[simp] theorem State.raise_acc (s : State) (st : Status) : (s.raise st).acc = s.acc := rfl
@[simp] theorem State.raise_accLen (s : State) (st : Status) : (s.raise st).accLen = s.accLen := rfl
@[simp] theorem State.raise_frame (s : State) (st : Status) : (s.raise st).frame = s.frame := rfl
@[simp] theorem State.raise_esc (s : State) (st : Status) : (s.raise st).esc = s.esc := rfl
@[simp] theorem State.raise_pos (s : State) (st : Status) : (s.raise st).pos = s.pos := rfl
@[simp] theorem State.raise_cur (s : State) (st : Status) : (s.raise st).cur = s.cur := rfl
@[simp] theorem State.raise_encPos (s : State) (st : Status) : (s.raise st).encPos = s.encPos := rfl
@[simp] theorem State.raise_encCur (s : State) (st : Status) : (s.raise st).encCur = s.encCur := rfl
@[simp] theorem State.raise_sum (s : State) (st : Status) : (s.raise st).sum = s.sum := rfl
@[simp] theorem State.raise_txBuf (s : State) (st : Status) : (s.raise st).txBuf = s.txBuf := rfl
@[simp] theorem State.raise_status (s : State) (st : Status) : (s.raise st).status = st := rfl
@[simp] theorem State.raise_out (s : State) (st : Status) : (s.raise st).out = s.out := rfl
@[simp] theorem State.raise_keys (s : State) (st : Status) : (s.raise st).keys = s.keys := rfl
@[simp] theorem State.raise_readys (s : State) (st : Status) : (s.raise st).readys = s.readys := rfl
@[simp] theorem State.raise_rxLine (s : State) (st : Status) : (s.raise st).rxLine = s.rxLine := rfl
@[simp] theorem State.raise_txLine (s : State) (st : Status) : (s.raise st).txLine = s.txLine := rfl
@[simp] theorem State.raise_apps (s : State) (st : Status) : (s.raise st).apps = s.apps := rfl
@[simp] theorem State.raise_port (s : State) (st : Status) : (s.raise st).port = s.port := rfl
@[simp] theorem State.raise_fresh (s : State) (st : Status) : (s.raise st).fresh = s.fresh + 1 := rfl

@[simp] theorem State.raiseInto_cfg (s : State) (st : Status) : (s.raiseInto st).cfg = s.cfg := rfl
@[simp] theorem State.raiseInto_tab (s : State) (st : Status) : (s.raiseInto st).tab = s.tab := rfl
@[simp] theorem State.raiseInto_rxs (s : State) (st : Status) : (s.raiseInto st).rxs = s.rxs := rfl
@[simp] theorem State.raiseInto_handler (s : State) (st : Status) : (s.raiseInto st).handler = s.handler := rfl
@[simp] theorem State.raiseInto_acc (s : State) (st : Status) : (s.raiseInto st).acc = s.acc := rfl
@[simp] theorem State.raiseInto_accLen (s : State) (st : Status) : (s.raiseInto st).accLen = s.accLen := rfl
@[simp] theorem State.raiseInto_frame (s : State) (st : Status) : (s.raiseInto st).frame = s.frame := rfl
@[simp] theorem State.raiseInto_esc (s : State) (st : Status) : (s.raiseInto st).esc = s.esc := rfl
@[simp] theorem State.raiseInto_pos (s : State) (st : Status) : (s.raiseInto st).pos = s.pos := rfl
@[simp] theorem State.raiseInto_cur (s : State) (st : Status) : (s.raiseInto st).cur = s.cur := rfl
@[simp] theorem State.raiseInto_encPos (s : State) (st : Status) : (s.raiseInto st).encPos = s.encPos := rfl
@[simp] theorem State.raiseInto_encCur (s : State) (st : Status) : (s.raiseInto st).encCur = s.encCur := rfl
@[simp] theorem State.raiseInto_sum (s : State) (st : Status) : (s.raiseInto st).sum = s.sum := rfl
@[simp] theorem State.raiseInto_txBuf (s : State) (st : Status) : (s.raiseInto st).txBuf = s.txBuf := rfl
@[simp] theorem State.raiseInto_status (s : State) (st : Status) : (s.raiseInto st).status = st := rfl
@[simp] theorem State.raiseInto_out (s : State) (st : Status) : (s.raiseInto st).out = [] := rfl
@[simp] theorem State.raiseInto_keys (s : State) (st : Status) : (s.raiseInto st).keys = s.keys := rfl
@[simp] theorem State.raiseInto_readys (s : State) (st : Status) : (s.raiseInto st).readys = s.readys := rfl
@[simp] theorem State.raiseInto_rxLine (s : State) (st : Status) : (s.raiseInto st).rxLine = s.rxLine := rfl
@[simp] theorem State.raiseInto_txLine (s : State) (st : Status) : (s.raiseInto st).txLine = s.txLine := rfl
@[simp] theorem State.raiseInto_apps (s : State) (st : Status) : (s.raiseInto st).apps = s.apps := rfl
@[simp] theorem State.raiseInto_port (s : State) (st : Status) : (s.raiseInto st).port = s.port := rfl
@[simp] theorem State.raiseInto_fresh (s : State) (st : Status) : (s.raiseInto st).fresh = s.fresh + 1 := rfl

@[simp] theorem State.writeLine_cfg (s : State) (bs : List Byte) : (s.writeLine bs).cfg = s.cfg := rfl
@[simp] theorem State.writeLine_tab (s : State) (bs : List Byte) : (s.writeLine bs).tab = s.tab := rfl
@[simp] theorem State.writeLine_rxs (s : State) (bs : List Byte) : (s.writeLine bs).rxs = s.rxs := rfl
@[simp] theorem State.writeLine_handler (s : State) (bs : List Byte) : (s.writeLine bs).handler = s.handler := rfl
@[simp] theorem State.writeLine_acc (s : State) (bs : List Byte) : (s.writeLine bs).acc = s.acc := rfl
@[simp] theorem State.writeLine_accLen (s : State) (bs : List Byte) : (s.writeLine bs).accLen = s.accLen := rfl
@[simp] theorem State.writeLine_frame (s : State) (bs : List Byte) : (s.writeLine bs).frame = s.frame := rfl
@[simp] theorem State.writeLine_esc (s : State) (bs : List Byte) : (s.writeLine bs).esc = s.esc := rfl
@[simp] theorem State.writeLine_pos (s : State) (bs : List Byte) : (s.writeLine bs).pos = s.pos := rfl
@[simp] theorem State.writeLine_cur (s : State) (bs : List Byte) : (s.writeLine bs).cur = s.cur := rfl
@[simp] theorem State.writeLine_encPos (s : State) (bs : List Byte) : (s.writeLine bs).encPos = s.encPos := rfl
@[simp] theorem State.writeLine_encCur (s : State) (bs : List Byte) : (s.writeLine bs).encCur = s.encCur := rfl
@[simp] theorem State.writeLine_sum (s : State) (bs : List Byte) : (s.writeLine bs).sum = s.sum := rfl
@[simp] theorem State.writeLine_txBuf (s : State) (bs : List Byte) : (s.writeLine bs).txBuf = s.txBuf := rfl
@[simp] theorem State.writeLine_status (s : State) (bs : List Byte) : (s.writeLine bs).status = s.status := rfl
@[simp] theorem State.writeLine_count (s : State) (bs : List Byte) : (s.writeLine bs).count = s.count := rfl
@[simp] theorem State.writeLine_out (s : State) (bs : List Byte) : (s.writeLine bs).out = s.out := rfl
@[simp] theorem State.writeLine_result (s : State) (bs : List Byte) : (s.writeLine bs).result = s.result := rfl
@[simp] theorem State.writeLine_keys (s : State) (bs : List Byte) : (s.writeLine bs).keys = s.keys := rfl
@[simp] theorem State.writeLine_readys (s : State) (bs : List Byte) : (s.writeLine bs).readys = s.readys := rfl
@[simp] theorem State.writeLine_rxLine (s : State) (bs : List Byte) : (s.writeLine bs).rxLine = s.rxLine := rfl
@[simp] theorem State.writeLine_txLine (s : State) (bs : List Byte) : (s.writeLine bs).txLine = s.txLine ++ bs := rfl
@[simp] theorem State.writeLine_apps (s : State) (bs : List Byte) : (s.writeLine bs).apps = s.apps := rfl
@[simp] theorem State.writeLine_port (s : State) (bs : List Byte) : (s.writeLine bs).port = s.port := rfl
@[simp] theorem State.writeLine_fresh (s : State) (bs : List Byte) : (s.writeLine bs).fresh = s.fresh := rfl

@[simp] theorem State.setEnc_cfg (s : State) (e : Enc) : (s.setEnc e).cfg = s.cfg := rfl
@[simp] theorem State.setEnc_tab (s : State) (e : Enc) : (s.setEnc e).tab = s.tab := rfl
@[simp] theorem State.setEnc_rxs (s : State) (e : Enc) : (s.setEnc e).rxs = s.rxs := rfl
@[simp] theorem State.setEnc_handler (s : State) (e : Enc) : (s.setEnc e).handler = s.handler := rfl
@[simp] theorem State.setEnc_acc (s : State) (e : Enc) : (s.setEnc e).acc = s.acc := rfl
@[simp] theorem State.setEnc_accLen (s : State) (e : Enc) : (s.setEnc e).accLen = s.accLen := rfl
@[simp] theorem State.setEnc_frame (s : State) (e : Enc) : (s.setEnc e).frame = s.frame := rfl
@[simp] theorem State.setEnc_esc (s : State) (e : Enc) : (s.setEnc e).esc = s.esc := rfl
@[simp] theorem State.setEnc_pos (s : State) (e : Enc) : (s.setEnc e).pos = s.pos := rfl
@[simp] theorem State.setEnc_cur (s : State) (e : Enc) : (s.setEnc e).cur = s.cur := rfl
@[simp] theorem State.setEnc_encPos (s : State) (e : Enc) : (s.setEnc e).encPos = e.pos := rfl
@[simp] theorem State.setEnc_encCur (s : State) (e : Enc) : (s.setEnc e).encCur = e.cur := rfl
@[simp] theorem State.setEnc_sum (s : State) (e : Enc) : (s.setEnc e).sum = s.sum := rfl
@[simp] theorem State.setEnc_txBuf (s : State) (e : Enc) : (s.setEnc e).txBuf = s.txBuf := rfl
@[simp] theorem State.setEnc_status (s : State) (e : Enc) : (s.setEnc e).status = s.status := rfl
@[simp] theorem State.setEnc_count (s : State) (e : Enc) : (s.setEnc e).count = s.count := rfl
@[simp] theorem State.setEnc_out (s : State) (e : Enc) : (s.setEnc e).out = s.out := rfl
@[simp] theorem State.setEnc_result (s : State) (e : Enc) : (s.setEnc e).result = s.result := rfl
@[simp] theorem State.setEnc_keys (s : State) (e : Enc) : (s.setEnc e).keys = s.keys := rfl
@[simp] theorem State.setEnc_readys (s : State) (e : Enc) : (s.setEnc e).readys = s.readys := rfl
@[simp] theorem State.setEnc_rxLine (s : State) (e : Enc) : (s.setEnc e).rxLine = s.rxLine := rfl
@[simp] theorem State.setEnc_txLine (s : State) (e : Enc) : (s.setEnc e).txLine = s.txLine := rfl
@[simp] theorem State.setEnc_apps (s : State) (e : Enc) : (s.setEnc e).apps = s.apps := rfl
@[simp] theorem State.setEnc_port (s : State) (e : Enc) : (s.setEnc e).port = s.port := rfl
@[simp] theorem State.setEnc_fresh (s : State) (e : Enc) : (s.setEnc e).fresh = s.fresh := rfl

@[simp] theorem State.setDec_cfg (s : State) (d : Dec) : (s.setDec d).cfg = s.cfg := rfl
@[simp] theorem State.setDec_tab (s : State) (d : Dec) : (s.setDec d).tab = s.tab := rfl
@[simp] theorem State.setDec_rxs (s : State) (d : Dec) : (s.setDec d).rxs = s.rxs := rfl
@[simp] theorem State.setDec_handler (s : State) (d : Dec) : (s.setDec d).handler = s.handler := rfl
@[simp] theorem State.setDec_acc (s : State) (d : Dec) : (s.setDec d).acc = s.acc := rfl
@[simp] theorem State.setDec_accLen (s : State) (d : Dec) : (s.setDec d).accLen = s.accLen := rfl
@[simp] theorem State.setDec_frame (s : State) (d : Dec) : (s.setDec d).frame = s.frame := rfl
@[simp] theorem State.setDec_esc (s : State) (d : Dec) : (s.setDec d).esc = d.esc := rfl
@[simp] theorem State.setDec_pos (s : State) (d : Dec) : (s.setDec d).pos = d.pos := rfl
@[simp] theorem State.setDec_cur (s : State) (d : Dec) : (s.setDec d).cur = d.cur := rfl
@[simp] theorem State.setDec_encPos (s : State) (d : Dec) : (s.setDec d).encPos = s.encPos := rfl
@[simp] theorem State.setDec_encCur (s : State) (d : Dec) : (s.setDec d).encCur = s.encCur := rfl
@[simp] theorem State.setDec_sum (s : State) (d : Dec) : (s.setDec d).sum = s.sum := rfl
@[simp] theorem State.setDec_txBuf (s : State) (d : Dec) : (s.setDec d).txBuf = s.txBuf := rfl
@[simp] theorem State.setDec_status (s : State) (d : Dec) : (s.setDec d).status = s.status := rfl
@[simp] theorem State.setDec_count (s : State) (d : Dec) : (s.setDec d).count = s.count := rfl
@[simp] theorem State.setDec_out (s : State) (d : Dec) : (s.setDec d).out = s.out := rfl
@[simp] theorem State.setDec_result (s : State) (d : Dec) : (s.setDec d).result = s.result := rfl
@[simp] theorem State.setDec_keys (s : State) (d : Dec) : (s.setDec d).keys = s.keys := rfl
@[simp] theorem State.setDec_readys (s : State) (d : Dec) : (s.setDec d).readys = s.readys := rfl
@[simp] theorem State.setDec_rxLine (s : State) (d : Dec) : (s.setDec d).rxLine = s.rxLine := rfl
@[simp] theorem State.setDec_txLine (s : State) (d : Dec) : (s.setDec d).txLine = s.txLine := rfl
@[simp] theorem State.setDec_apps (s : State) (d : Dec) : (s.setDec d).apps = s.apps := rfl
@[simp] theorem State.setDec_port (s : State) (d : Dec) : (s.setDec d).port = s.port := rfl
@[simp] theorem State.setDec_fresh (s : State) (d : Dec) : (s.setDec d).fresh = s.fresh := rfl

@[simp] theorem State.fillTxBuf_cfg (s : State) (bs : List Byte) : (s.fillTxBuf bs).cfg = s.cfg := rfl
@[simp] theorem State.fillTxBuf_tab (s : State) (bs : List Byte) : (s.fillTxBuf bs).tab = s.tab := rfl
@[simp] theorem State.fillTxBuf_rxs (s : State) (bs : List Byte) : (s.fillTxBuf bs).rxs = s.rxs := rfl
@[simp] theorem State.fillTxBuf_handler (s : State) (bs : List Byte) : (s.fillTxBuf bs).handler = s.handler := rfl
@[simp] theorem State.fillTxBuf_acc (s : State) (bs : List Byte) : (s.fillTxBuf bs).acc = s.acc := rfl
@[simp] theorem State.fillTxBuf_accLen (s : State) (bs : List Byte) : (s.fillTxBuf bs).accLen = s.accLen := rfl
@[simp] theorem State.fillTxBuf_frame (s : State) (bs : List Byte) : (s.fillTxBuf bs).frame = s.frame := rfl
@[simp] theorem State.fillTxBuf_esc (s : State) (bs : List Byte) : (s.fillTxBuf bs).esc = s.esc := rfl
@[simp] theorem State.fillTxBuf_pos (s : State) (bs : List Byte) : (s.fillTxBuf bs).pos = s.pos := rfl
@[simp] theorem State.fillTxBuf_cur (s : State) (bs : List Byte) : (s.fillTxBuf bs).cur = s.cur := rfl
@[simp] theorem State.fillTxBuf_encPos (s : State) (bs : List Byte) : (s.fillTxBuf bs).encPos = s.encPos := rfl
@[simp] theorem State.fillTxBuf_encCur (s : State) (bs : List Byte) : (s.fillTxBuf bs).encCur = s.encCur := rfl
@[simp] theorem State.fillTxBuf_sum (s : State) (bs : List Byte) : (s.fillTxBuf bs).sum = s.sum := rfl
@[simp] theorem State.fillTxBuf_txBuf (s : State) (bs : List Byte) : (s.fillTxBuf bs).txBuf = Memory.ofBytes bs := rfl
@[simp] theorem State.fillTxBuf_status (s : State) (bs : List Byte) : (s.fillTxBuf bs).status = s.status := rfl
@[simp] theorem State.fillTxBuf_count (s : State) (bs : List Byte) : (s.fillTxBuf bs).count = s.count := rfl
@[simp] theorem State.fillTxBuf_out (s : State) (bs : List Byte) : (s.fillTxBuf bs).out = s.out := rfl
@[simp] theorem State.fillTxBuf_result (s : State) (bs : List Byte) : (s.fillTxBuf bs).result = s.result := rfl
@[simp] theorem State.fillTxBuf_keys (s : State) (bs : List Byte) : (s.fillTxBuf bs).keys = s.keys := rfl
@[simp] theorem State.fillTxBuf_readys (s : State) (bs : List Byte) : (s.fillTxBuf bs).readys = s.readys := rfl
@[simp] theorem State.fillTxBuf_rxLine (s : State) (bs : List Byte) : (s.fillTxBuf bs).rxLine = s.rxLine := rfl
@[simp] theorem State.fillTxBuf_txLine (s : State) (bs : List Byte) : (s.fillTxBuf bs).txLine = s.txLine := rfl
@[simp] theorem State.fillTxBuf_apps (s : State) (bs : List Byte) : (s.fillTxBuf bs).apps = s.apps := rfl
@[simp] theorem State.fillTxBuf_port (s : State) (bs : List Byte) : (s.fillTxBuf bs).port = s.port := rfl
@[simp] theorem State.fillTxBuf_fresh (s : State) (bs : List Byte) : (s.fillTxBuf bs).fresh = s.fresh := rfl

@[simp] theorem State.releaseTxBuf_cfg (s : State) : (s.releaseTxBuf).cfg = s.cfg := rfl
@[simp] theorem State.releaseTxBuf_tab (s : State) : (s.releaseTxBuf).tab = s.tab := rfl
@[simp] theorem State.releaseTxBuf_rxs (s : State) : (s.releaseTxBuf).rxs = s.rxs := rfl
@[simp] theorem State.releaseTxBuf_handler (s : State) : (s.releaseTxBuf).handler = s.handler := rfl
@[simp] theorem State.releaseTxBuf_acc (s : State) : (s.releaseTxBuf).acc = s.acc := rfl
@[simp] theorem State.releaseTxBuf_accLen (s : State) : (s.releaseTxBuf).accLen = s.accLen := rfl
@[simp] theorem State.releaseTxBuf_frame (s : State) : (s.releaseTxBuf).frame = s.frame := rfl
@[simp] theorem State.releaseTxBuf_esc (s : State) : (s.releaseTxBuf).esc = s.esc := rfl
@[simp] theorem State.releaseTxBuf_pos (s : State) : (s.releaseTxBuf).pos = s.pos := rfl
@[simp] theorem State.releaseTxBuf_cur (s : State) : (s.releaseTxBuf).cur = s.cur := rfl
@[simp] theorem State.releaseTxBuf_encPos (s : State) : (s.releaseTxBuf).encPos = s.encPos := rfl
@[simp] theorem State.releaseTxBuf_encCur (s : State) : (s.releaseTxBuf).encCur = s.encCur := rfl
@[simp] theorem State.releaseTxBuf_sum (s : State) : (s.releaseTxBuf).sum = s.sum := rfl
@[simp] theorem State.releaseTxBuf_txBuf (s : State) : (s.releaseTxBuf).txBuf = [] := rfl
@[simp] theorem State.releaseTxBuf_status (s : State) : (s.releaseTxBuf).status = s.status := rfl
@[simp] theorem State.releaseTxBuf_count (s : State) : (s.releaseTxBuf).count = s.count := rfl
@[simp] theorem State.releaseTxBuf_out (s : State) : (s.releaseTxBuf).out = s.out := rfl
@[simp] theorem State.releaseTxBuf_result (s : State) : (s.releaseTxBuf).result = s.result := rfl
@[simp] theorem State.releaseTxBuf_keys (s : State) : (s.releaseTxBuf).keys = s.keys := rfl
@[simp] theorem State.releaseTxBuf_readys (s : State) : (s.releaseTxBuf).readys = s.readys := rfl
@[simp] theorem State.releaseTxBuf_rxLine (s : State) : (s.releaseTxBuf).rxLine = s.rxLine := rfl
@[simp] theorem State.releaseTxBuf_txLine (s : State) : (s.releaseTxBuf).txLine = s.txLine := rfl
@[simp] theorem State.releaseTxBuf_apps (s : State) : (s.releaseTxBuf).apps = s.apps := rfl
@[simp] theorem State.releaseTxBuf_port (s : State) : (s.releaseTxBuf).port = s.port := rfl
@[simp] theorem State.releaseTxBuf_fresh (s : State) : (s.releaseTxBuf).fresh = s.fresh := rfl

@[simp] theorem State.cleared_cfg (s : State) : (s.cleared).cfg = s.cfg := rfl
@[simp] theorem State.cleared_tab (s : State) : (s.cleared).tab = List.replicate s.cfg.tableCap none := rfl
@[simp] theorem State.cleared_rxs (s : State) : (s.cleared).rxs = s.rxs := rfl
@[simp] theorem State.cleared_handler (s : State) : (s.cleared).handler = s.handler := rfl
@[simp] theorem State.cleared_acc (s : State) : (s.cleared).acc = [] := rfl
@[simp] theorem State.cleared_accLen (s : State) : (s.cleared).accLen = s.accLen := rfl
@[simp] theorem State.cleared_frame (s : State) : (s.cleared).frame = [] := rfl
@[simp] theorem State.cleared_esc (s : State) : (s.cleared).esc = s.esc := rfl
@[simp] theorem State.cleared_pos (s : State) : (s.cleared).pos = s.pos := rfl
@[simp] theorem State.cleared_cur (s : State) : (s.cleared).cur = s.cur := rfl
@[simp] theorem State.cleared_encPos (s : State) : (s.cleared).encPos = s.encPos := rfl
@[simp] theorem State.cleared_encCur (s : State) : (s.cleared).encCur = s.encCur := rfl
@[simp] theorem State.cleared_sum (s : State) : (s.cleared).sum = s.sum := rfl
@[simp] theorem State.cleared_txBuf (s : State) : (s.cleared).txBuf = [] := rfl
@[simp] theorem State.cleared_status (s : State) : (s.cleared).status = s.status := rfl
@[simp] theorem State.cleared_count (s : State) : (s.cleared).count = s.count := rfl
@[simp] theorem State.cleared_out (s : State) : (s.cleared).out = [] := rfl
@[simp] theorem State.cleared_result (s : State) : (s.cleared).result = s.result := rfl
@[simp] theorem State.cleared_keys (s : State) : (s.cleared).keys = s.keys := rfl
@[simp] theorem State.cleared_readys (s : State) : (s.cleared).readys = s.readys := rfl
@[simp] theorem State.cleared_rxLine (s : State) : (s.cleared).rxLine = s.rxLine := rfl
@[simp] theorem State.cleared_txLine (s : State) : (s.cleared).txLine = s.txLine := rfl
@[simp] theorem State.cleared_apps (s : State) : (s.cleared).apps = s.apps := rfl
@[simp] theorem State.cleared_port (s : State) : (s.cleared).port = s.port := rfl
@[simp] theorem State.cleared_fresh (s : State) : (s.cleared).fresh = s.fresh := rfl

@[simp] theorem rxEnter_cfg (h : Handler) (s : State) : (rxEnter h s).cfg = s.cfg := rfl
@[simp] theorem rxEnter_tab (h : Handler) (s : State) : (rxEnter h s).tab = s.tab := rfl
@[simp] theorem rxEnter_rxs (h : Handler) (s : State) : (rxEnter h s).rxs = .pollKey := rfl
@[simp] theorem rxEnter_handler (h : Handler) (s : State) : (rxEnter h s).handler = h := rfl
@[simp] theorem rxEnter_acc (h : Handler) (s : State) : (rxEnter h s).acc = [] := rfl
@[simp] theorem rxEnter_accLen (h : Handler) (s : State) : (rxEnter h s).accLen = 0 := rfl
@[simp] theorem rxEnter_frame (h : Handler) (s : State) : (rxEnter h s).frame = [] := rfl
@[simp] theorem rxEnter_esc (h : Handler) (s : State) : (rxEnter h s).esc = s.esc := rfl
@[simp] theorem rxEnter_pos (h : Handler) (s : State) : (rxEnter h s).pos = s.pos := rfl
@[simp] theorem rxEnter_cur (h : Handler) (s : State) : (rxEnter h s).cur = s.cur := rfl
@[simp] theorem rxEnter_encPos (h : Handler) (s : State) : (rxEnter h s).encPos = s.encPos := rfl
@[simp] theorem rxEnter_encCur (h : Handler) (s : State) : (rxEnter h s).encCur = s.encCur := rfl
@[simp] theorem rxEnter_sum (h : Handler) (s : State) : (rxEnter h s).sum = s.sum := rfl
@[simp] theorem rxEnter_txBuf (h : Handler) (s : State) : (rxEnter h s).txBuf = s.txBuf := rfl
@[simp] theorem rxEnter_status (h : Handler) (s : State) : (rxEnter h s).status = s.status := rfl
@[simp] theorem rxEnter_count (h : Handler) (s : State) : (rxEnter h s).count = s.count := rfl
@[simp] theorem rxEnter_out (h : Handler) (s : State) : (rxEnter h s).out = s.out := rfl
@[simp] theorem rxEnter_result (h : Handler) (s : State) : (rxEnter h s).result = s.result := rfl
@[simp] theorem rxEnter_keys (h : Handler) (s : State) : (rxEnter h s).keys = s.keys := rfl
@[simp] theorem rxEnter_readys (h : Handler) (s : State) : (rxEnter h s).readys = s.readys := rfl
@[simp] theorem rxEnter_rxLine (h : Handler) (s : State) : (rxEnter h s).rxLine = s.rxLine := rfl
@[simp] theorem rxEnter_txLine (h : Handler) (s : State) : (rxEnter h s).txLine = s.txLine := rfl
@[simp] theorem rxEnter_apps (h : Handler) (s : State) : (rxEnter h s).apps = s.apps := rfl
@[simp] theorem rxEnter_port (h : Handler) (s : State) : (rxEnter h s).port = s.port := rfl
@[simp] theorem rxEnter_fresh (h : Handler) (s : State) : (rxEnter h s).fresh = s.fresh := rfl

@[simp] theorem rxLeave_cfg (s : State) : (rxLeave s).cfg = s.cfg := rfl
@[simp] theorem rxLeave_tab (s : State) : (rxLeave s).tab = s.tab := rfl
@[simp] theorem rxLeave_rxs (s : State) : (rxLeave s).rxs = .done := rfl
@[simp] theorem rxLeave_handler (s : State) : (rxLeave s).handler = s.handler := rfl
@[simp] theorem rxLeave_acc (s : State) : (rxLeave s).acc = [] := rfl
@[simp] theorem rxLeave_accLen (s : State) : (rxLeave s).accLen = s.accLen := rfl
@[simp] theorem rxLeave_frame (s : State) : (rxLeave s).frame = [] := rfl
@[simp] theorem rxLeave_esc (s : State) : (rxLeave s).esc = s.esc := rfl
@[simp] theorem rxLeave_pos (s : State) : (rxLeave s).pos = s.pos := rfl
@[simp] theorem rxLeave_cur (s : State) : (rxLeave s).cur = s.cur := rfl
@[simp] theorem rxLeave_encPos (s : State) : (rxLeave s).encPos = s.encPos := rfl
@[simp] theorem rxLeave_encCur (s : State) : (rxLeave s).encCur = s.encCur := rfl
@[simp] theorem rxLeave_sum (s : State) : (rxLeave s).sum = s.sum := rfl
@[simp] theorem rxLeave_txBuf (s : State) : (rxLeave s).txBuf = s.txBuf := rfl
@[simp] theorem rxLeave_status (s : State) : (rxLeave s).status = s.status := rfl
@[simp] theorem rxLeave_count (s : State) : (rxLeave s).count = s.count := rfl
@[simp] theorem rxLeave_out (s : State) : (rxLeave s).out = s.out := rfl
@[simp] theorem rxLeave_result (s : State) : (rxLeave s).result = s.result := rfl
@[simp] theorem rxLeave_keys (s : State) : (rxLeave s).keys = s.keys := rfl
@[simp] theorem rxLeave_readys (s : State) : (rxLeave s).readys = s.readys := rfl
@[simp] theorem rxLeave_rxLine (s : State) : (rxLeave s).rxLine = s.rxLine := rfl
@[simp] theorem rxLeave_txLine (s : State) : (rxLeave s).txLine = s.txLine := rfl
@[simp] theorem rxLeave_apps (s : State) : (rxLeave s).apps = s.apps := rfl
@[simp] theorem rxLeave_port (s : State) : (rxLeave s).port = s.port := rfl
@[simp] theorem rxLeave_fresh (s : State) : (rxLeave s).fresh = s.fresh := rfl

@[simp] theorem State.withFetchWord_cfg (s : State) (nbits w : Nat) : (s.withFetchWord nbits w).cfg = s.cfg := rfl
@[simp] theorem State.withFetchWord_tab (s : State) (nbits w : Nat) : (s.withFetchWord nbits w).tab = s.tab := rfl
@[simp] theorem State.withFetchWord_handler (s : State) (nbits w : Nat) : (s.withFetchWord nbits w).handler = s.handler := rfl
@[simp] theorem State.withFetchWord_acc (s : State) (nbits w : Nat) : (s.withFetchWord nbits w).acc = s.acc := rfl
@[simp] theorem State.withFetchWord_accLen (s : State) (nbits w : Nat) : (s.withFetchWord nbits w).accLen = s.accLen := rfl
@[simp] theorem State.withFetchWord_frame (s : State) (nbits w : Nat) : (s.withFetchWord nbits w).frame = s.frame := rfl
@[simp] theorem State.withFetchWord_esc (s : State) (nbits w : Nat) : (s.withFetchWord nbits w).esc = s.esc := rfl
@[simp] theorem State.withFetchWord_pos (s : State) (nbits w : Nat) : (s.withFetchWord nbits w).pos = s.pos := rfl
@[simp] theorem State.withFetchWord_cur (s : State) (nbits w : Nat) : (s.withFetchWord nbits w).cur = s.cur := rfl
@[simp] theorem State.withFetchWord_encPos (s : State) (nbits w : Nat) : (s.withFetchWord nbits w).encPos = s.encPos := rfl
@[simp] theorem State.withFetchWord_encCur (s : State) (nbits w : Nat) : (s.withFetchWord nbits w).encCur = s.encCur := rfl
@[simp] theorem State.withFetchWord_sum (s : State) (nbits w : Nat) : (s.withFetchWord nbits w).sum = s.sum := rfl
@[simp] theorem State.withFetchWord_txBuf (s : State) (nbits w : Nat) : (s.withFetchWord nbits w).txBuf = s.txBuf := rfl
@[simp] theorem State.withFetchWord_status (s : State) (nbits w : Nat) : (s.withFetchWord nbits w).status = s.status := rfl
@[simp] theorem State.withFetchWord_count (s : State) (nbits w : Nat) : (s.withFetchWord nbits w).count = s.count := rfl
@[simp] theorem State.withFetchWord_out (s : State) (nbits w : Nat) : (s.withFetchWord nbits w).out = s.out := rfl
@[simp] theorem State.withFetchWord_result (s : State) (nbits w : Nat) : (s.withFetchWord nbits w).result = s.result := rfl
@[simp] theorem State.withFetchWord_keys (s : State) (nbits w : Nat) : (s.withFetchWord nbits w).keys = s.keys := rfl
@[simp] theorem State.withFetchWord_readys (s : State) (nbits w : Nat) : (s.withFetchWord nbits w).readys = s.readys := rfl
@[simp] theorem State.withFetchWord_rxLine (s : State) (nbits w : Nat) : (s.withFetchWord nbits w).rxLine = s.rxLine := rfl
@[simp] theorem State.withFetchWord_txLine (s : State) (nbits w : Nat) : (s.withFetchWord nbits w).txLine = s.txLine := rfl
@[simp] theorem State.withFetchWord_apps (s : State) (nbits w : Nat) : (s.withFetchWord nbits w).apps = s.apps := rfl
@[simp] theorem State.withFetchWord_fresh (s : State) (nbits w : Nat) : (s.withFetchWord nbits w).fresh = s.fresh := rfl

@[simp] theorem State.withFetchWord_rxs (s : State) (nbits w : Nat) :
    (s.withFetchWord nbits w).rxs = .done := rfl
@[simp] theorem State.withFetchWord_port (s : State) (nbits w : Nat) :
    (s.withFetchWord nbits w).port = .command (tablePacket nbits w) :: s.port := rfl

end Sys2Proof.Machine
end

