-- ==== Sys2Proof/Laws/Ops.lean ====
section
/-! SUPPORT. What each shared operation answers, once. -/

namespace Sys2Proof.Machine

/-- Issuing answers a next state exactly when no operation is in progress, and then the state the
operation leaves. -/
theorem State.issue_eq_next {s t u : State} :
    s.issue t = .next u ↔ s.rxs = .done ∧ t = u := by
  unfold State.issue
  split <;> simp_all

theorem State.issue_idle {s : State} (h : s.rxs = .done) (t : State) : s.issue t = .next t := by
  simp [State.issue, h]

theorem State.issue_busy {s : State} (h : s.rxs ≠ .done) (t : State) :
    s.issue t = .refused .operationInProgress := by simp [State.issue, h]

/-- The same for an operation with an output buffer: the buffers must be distinct besides. -/
theorem State.issueInto_eq_next {s t u : State} {ob : OutBuf} :
    s.issueInto ob t = .next u ↔ ob.overlaps = false ∧ s.rxs = .done ∧ t = u := by
  unfold State.issueInto
  split
  · split <;> simp_all
  · simp_all [State.issue_eq_next]

theorem State.issueInto_idle {s : State} {ob : OutBuf} (h : s.rxs = .done)
    (ho : ob.overlaps = false) (t : State) : s.issueInto ob t = .next t := by
  simp [State.issueInto, ho, State.issue_idle h]

theorem State.issueInto_busy {s : State} {ob : OutBuf} (h : s.rxs ≠ .done) (t : State) :
    s.issueInto ob t = .refused .operationInProgress := by
  cases ho : ob.overlaps <;> simp [State.issueInto, ho, h, State.issue_busy h]

theorem State.issueInto_overlap {s : State} {ob : OutBuf} (h : s.rxs = .done)
    (ho : ob.overlaps = true) (t : State) : s.issueInto ob t = .refused .bufferOverlap := by
  simp [State.issueInto, ho, h]

/-- Neither way of issuing answers a fault. -/
theorem State.issue_ne_fault (s t : State) (f : Fault) : s.issue t ≠ .fault f := nomatch f

/-- A key check either takes the head of the list or a free answer. -/
theorem State.nextKey_cases (s : State) :
    (∃ k ks, s.keys = k :: ks ∧ s.nextKey = (k, { s with keys := ks })) ∨
      (s.keys = [] ∧ s.nextKey = (Config.freeKey s.fresh, { s with fresh := s.fresh + 1 })) := by
  unfold State.nextKey
  cases h : s.keys with
  | nil => exact .inr ⟨rfl, rfl⟩
  | cons k ks => exact .inl ⟨k, ks, rfl, rfl⟩

/-- `ready()` either takes the head of the list or a free answer. -/
theorem State.nextReady_cases (s : State) :
    (∃ r rs, s.readys = r :: rs ∧ s.nextReady = (r, { s with readys := rs })) ∨
      (s.readys = [] ∧
        s.nextReady = (Config.freeReady s.fresh, { s with fresh := s.fresh + 1 })) := by
  unfold State.nextReady
  cases h : s.readys with
  | nil => exact .inr ⟨rfl, rfl⟩
  | cons r rs => exact .inl ⟨r, rs, rfl, rfl⟩

/-- `read()` either takes the first inbound byte or a free one. -/
theorem State.nextByte_cases (s : State) :
    (∃ b bs, s.rxLine = b :: bs ∧ s.nextByte = (b, { s with rxLine := bs })) ∨
      (s.rxLine = [] ∧
        s.nextByte = (Config.lineByte s.fresh, { s with fresh := s.fresh + 1 })) := by
  unfold State.nextByte
  cases h : s.rxLine with
  | nil => exact .inr ⟨rfl, rfl⟩
  | cons b bs => exact .inl ⟨b, bs, rfl, rfl⟩

/-- APP is answered by the list or by the host's function; nothing else changes. -/
theorem State.nextApp_cases (s : State) (sip dip : IP4) (hdr : TcpHdr) (p : List Byte) :
    (∃ a as, s.apps = a :: as ∧ s.nextApp sip dip hdr p = (a, { s with apps := as })) ∨
      (s.apps = [] ∧ s.nextApp sip dip hdr p = (Config.app sip dip hdr p, s)) := by
  unfold State.nextApp
  cases h : s.apps with
  | nil => exact .inr ⟨rfl, rfl⟩
  | cons a as => exact .inl ⟨a, as, rfl, rfl⟩

/-- Reset answers the cleared state, or refuses while an RX_POLL is in progress. -/
theorem resetBlock_cases (s : State) :
    (s.rxs = .done ∧ resetBlock s = .next s.cleared) ∨
      (s.rxs ≠ .done ∧ resetBlock s = .refused .resetInProgress) := by
  unfold resetBlock
  split
  · exact .inl ⟨‹_›, rfl⟩
  · exact .inr ⟨‹_›, rfl⟩

end Sys2Proof.Machine
end

