-- ==== Sys2Proof/Laws/PerInstr.lean ====
section
/-! SUPPORT. The per-instruction family SelectByte: an instruction's select byte determines which
instruction it is, so that no two instructions' packets can be taken for each other. -/

namespace Sys2Proof.Laws

/-- The select bytes in the order of the constructors of `Instr`. -/
def selectBytes : List Byte :=
  [0x00#8, 0x01#8, 0x02#8, 0x03#8, 0x04#8, 0x05#8, 0x06#8, 0x07#8] ++
  [0x08#8, 0x09#8, 0x0A#8, 0x0B#8, 0x0C#8, 0x0D#8, 0x0E#8, 0x0F#8] ++
  [0x10#8, 0x11#8, 0x12#8, 0x13#8, 0x14#8, 0x15#8, 0x16#8, 0x17#8] ++
  [0x18#8, 0x19#8, 0x1A#8, 0x1B#8, 0x1C#8, 0x1D#8, 0x1E#8, 0x1F#8] ++
  [0x20#8, 0x21#8, 0x22#8, 0xC0#8, 0xDB#8, 0xDC#8, 0xDD#8, 0xDE#8] ++
  [0x30#8, 0x31#8, 0x32#8, 0x38#8, 0x39#8, 0x40#8, 0x41#8, 0x42#8] ++
  [0x43#8, 0x44#8, 0x45#8]

/-- The place of an instruction's select byte in the table is the instruction's own number. -/
theorem selectBytes_idxOf (i : Instr) : selectBytes.idxOf i.select = i.ctorIdx := by
  cases i <;> rfl

/-- The select byte of `i` is no other instruction's. -/
def SelectByte.Statement (i : Instr) : Prop := ∀ j : Instr, j.select = i.select → j.ctorIdx = i.ctorIdx

theorem SelectByte.of_table (i : Instr) : SelectByte.Statement i := by
  intro j h
  rw [← selectBytes_idxOf, ← selectBytes_idxOf, h]

theorem SelectByte.slipEnc (input : List Byte) (ob : OutBuf) : SelectByte.Statement (.slipEnc input ob) := SelectByte.of_table _
theorem SelectByte.slipDec (input : List Byte) (ob : OutBuf) : SelectByte.Statement (.slipDec input ob) := SelectByte.of_table _
theorem SelectByte.csum (input : List Byte) : SelectByte.Statement (.csum input) := SelectByte.of_table _
theorem SelectByte.ipBuild (src dst : IP4) (protocol : Byte) (payload : List Byte) (ob : OutBuf) : SelectByte.Statement (.ipBuild src dst protocol payload ob) := SelectByte.of_table _
theorem SelectByte.ipParse (input : List Byte) : SelectByte.Statement (.ipParse input) := SelectByte.of_table _
theorem SelectByte.icmpBuild (type : Byte) (identifier sequence : U16) (payload : List Byte) (ob : OutBuf) : SelectByte.Statement (.icmpBuild type identifier sequence payload ob) := SelectByte.of_table _
theorem SelectByte.icmpParse (input : List Byte) : SelectByte.Statement (.icmpParse input) := SelectByte.of_table _
theorem SelectByte.udpBuild (srcIp dstIp : IP4) (srcPort dstPort : U16) (payload : List Byte) (ob : OutBuf) : SelectByte.Statement (.udpBuild srcIp dstIp srcPort dstPort payload ob) := SelectByte.of_table _
theorem SelectByte.udpParse (input : List Byte) : SelectByte.Statement (.udpParse input) := SelectByte.of_table _
theorem SelectByte.udpCsum (srcIp dstIp : IP4) (dgram : List Byte) : SelectByte.Statement (.udpCsum srcIp dstIp dgram) := SelectByte.of_table _
theorem SelectByte.tcpBuild (srcPort dstPort : U16) (seq ack : U32) (flags : BitVec 9) (window : U16) (payload : List Byte) (srcIp dstIp : IP4) (ob : OutBuf) : SelectByte.Statement (.tcpBuild srcPort dstPort seq ack flags window payload srcIp dstIp ob) := SelectByte.of_table _
theorem SelectByte.tcpParse (input : List Byte) : SelectByte.Statement (.tcpParse input) := SelectByte.of_table _
theorem SelectByte.tcpFlags (offFlags : U16) : SelectByte.Statement (.tcpFlags offFlags) := SelectByte.of_table _
theorem SelectByte.tcpSegIn (sip dip : IP4) (hdr : TcpHdr) (plen : Nat) (appData : List Byte) : SelectByte.Statement (.tcpSegIn sip dip hdr plen appData) := SelectByte.of_table _
theorem SelectByte.tcpClose (slot : Nat) : SelectByte.Statement (.tcpClose slot) := SelectByte.of_table _
theorem SelectByte.rxPoll (handler : Handler) : SelectByte.Statement (.rxPoll handler) := SelectByte.of_table _
theorem SelectByte.txFrame (input : List Byte) : SelectByte.Statement (.txFrame input) := SelectByte.of_table _
theorem SelectByte.reserved11 : SelectByte.Statement (.reserved11) := SelectByte.of_table _
theorem SelectByte.reserved12 : SelectByte.Statement (.reserved12) := SelectByte.of_table _
theorem SelectByte.reserved13 : SelectByte.Statement (.reserved13) := SelectByte.of_table _
theorem SelectByte.reserved14 : SelectByte.Statement (.reserved14) := SelectByte.of_table _
theorem SelectByte.reserved15 : SelectByte.Statement (.reserved15) := SelectByte.of_table _
theorem SelectByte.reserved16 : SelectByte.Statement (.reserved16) := SelectByte.of_table _
theorem SelectByte.reserved17 : SelectByte.Statement (.reserved17) := SelectByte.of_table _
theorem SelectByte.reserved18 : SelectByte.Statement (.reserved18) := SelectByte.of_table _
theorem SelectByte.reserved19 : SelectByte.Statement (.reserved19) := SelectByte.of_table _
theorem SelectByte.reserved1A : SelectByte.Statement (.reserved1A) := SelectByte.of_table _
theorem SelectByte.reserved1B : SelectByte.Statement (.reserved1B) := SelectByte.of_table _
theorem SelectByte.reserved1C : SelectByte.Statement (.reserved1C) := SelectByte.of_table _
theorem SelectByte.reserved1D : SelectByte.Statement (.reserved1D) := SelectByte.of_table _
theorem SelectByte.reserved1E : SelectByte.Statement (.reserved1E) := SelectByte.of_table _
theorem SelectByte.reserved1F : SelectByte.Statement (.reserved1F) := SelectByte.of_table _
theorem SelectByte.echoReply (src dst : IP4) (identifier sequence : U16) (payload : List Byte) : SelectByte.Statement (.echoReply src dst identifier sequence payload) := SelectByte.of_table _
theorem SelectByte.sendSeg (d : SegDesc) : SelectByte.Statement (.sendSeg d) := SelectByte.of_table _
theorem SelectByte.dispatch (frame : List Byte) : SelectByte.Statement (.dispatch frame) := SelectByte.of_table _
theorem SelectByte.slipEnd : SelectByte.Statement (.slipEnd) := SelectByte.of_table _
theorem SelectByte.slipEsc : SelectByte.Statement (.slipEsc) := SelectByte.of_table _
theorem SelectByte.slipEscEnd : SelectByte.Statement (.slipEscEnd) := SelectByte.of_table _
theorem SelectByte.slipEscEsc : SelectByte.Statement (.slipEscEsc) := SelectByte.of_table _
theorem SelectByte.slipInvalid (b : Byte) : SelectByte.Statement (.slipInvalid b) := SelectByte.of_table _
theorem SelectByte.ipProtoIcmp (src dst : IP4) (payload : List Byte) : SelectByte.Statement (.ipProtoIcmp src dst payload) := SelectByte.of_table _
theorem SelectByte.ipProtoTcp (src dst : IP4) (payload : List Byte) : SelectByte.Statement (.ipProtoTcp src dst payload) := SelectByte.of_table _
theorem SelectByte.ipProtoUdp (src dst : IP4) (payload : List Byte) : SelectByte.Statement (.ipProtoUdp src dst payload) := SelectByte.of_table _
theorem SelectByte.icmpEchoRequest (src dst : IP4) (identifier sequence : U16) (payload : List Byte) : SelectByte.Statement (.icmpEchoRequest src dst identifier sequence payload) := SelectByte.of_table _
theorem SelectByte.icmpEchoReply (src : IP4) (identifier sequence : U16) (payload : List Byte) : SelectByte.Statement (.icmpEchoReply src identifier sequence payload) := SelectByte.of_table _
theorem SelectByte.tcpFin (offFlags : U16) : SelectByte.Statement (.tcpFin offFlags) := SelectByte.of_table _
theorem SelectByte.tcpSyn (offFlags : U16) : SelectByte.Statement (.tcpSyn offFlags) := SelectByte.of_table _
theorem SelectByte.tcpRst (offFlags : U16) : SelectByte.Statement (.tcpRst offFlags) := SelectByte.of_table _
theorem SelectByte.tcpPsh (offFlags : U16) : SelectByte.Statement (.tcpPsh offFlags) := SelectByte.of_table _
theorem SelectByte.tcpAck (offFlags : U16) : SelectByte.Statement (.tcpAck offFlags) := SelectByte.of_table _
theorem SelectByte.tcpDataOffset5 (offFlags : U16) : SelectByte.Statement (.tcpDataOffset5 offFlags) := SelectByte.of_table _

end Sys2Proof.Laws
end

