-- ==== Sys2Proof/Laws/Receive.lean ====
section
/-! SUPPORT. What the accumulated prefix of the receive sequencer holds (spec/10_state.md R30), and
what appending to it and decoding it do (spec/47_rx_dispatch.md R273, R274). -/

namespace Sys2Proof.Machine

theorem Memory.holds_nil (m : Memory) : Memory.holds m [] := fun _ h => absurd h (Nat.not_lt_zero _)

theorem Memory.holds_ofBytes (l : List Byte) : Memory.holds (Memory.ofBytes l) l :=
  fun k _ => Memory.read_ofBytes l k

/-- Writing the next index appends a byte. -/
theorem Memory.holds_write_end {m : Memory} {l : List Byte} (b : Byte) (h : Memory.holds m l) :
    Memory.holds (Memory.write m l.length b) (l ++ [b]) := by
  intro k hk
  by_cases hkl : k = l.length
  · simp [hkl]
  · have hk' : k < l.length := by simp at hk; omega
    rw [Memory.read_write_other m b hkl, List.getElem?_append_left hk', h k hk']

/-- Reading the held bytes gives them, whatever the free bytes are. -/
theorem Memory.bytes_of_holds {m : Memory} {l : List Byte} (stamp : Nat) (h : Memory.holds m l) :
    Memory.bytes stamp m l.length = l := by
  apply List.ext_getElem
  · simp
  · intro i _ h2
    simp [Memory.bytes, Memory.byteOr, h i h2, h2]

/-- A prefix whose bytes are all defined is held. -/
theorem Memory.exists_holds {m : Memory} {n : Nat}
    (h : ∀ k, k < n → ∃ b, Memory.read m k = some b) :
    ∃ l : List Byte, l.length = n ∧ Memory.holds m l := by
  refine ⟨Memory.bytes 0 m n, by simp, fun k hk => ?_⟩
  have hk' : k < n := by simpa using hk
  obtain ⟨b, hb⟩ := h k hk'
  simp [Memory.bytes, Memory.byteOr, hb, hk']

/-- While an RX_POLL is in progress the invariant names the accumulated bytes. -/
theorem State.accDefined_iff (s : State) :
    s.accDefined ↔ (s.rxs ≠ .done → ∃ l, s.accHolds l) := by
  constructor
  · intro h hr
    obtain ⟨l, hl, hm⟩ := Memory.exists_holds (h hr)
    exact ⟨l, hl.symm, hm⟩
  · intro h hr k hk
    obtain ⟨l, hl, hm⟩ := h hr
    have hk' : k < l.length := hl ▸ hk
    exact ⟨l[k], by rw [hm k hk']; exact List.getElem?_eq_getElem hk'⟩

/-- R273 and R277 on the held bytes. -/
theorem State.accHolds_accumulate {s : State} {l : List Byte} (b : Byte) (h : s.accHolds l) :
    (accumulate b s).accHolds (if l.length < s.cfg.accCap then l ++ [b] else l) := by
  obtain ⟨hl, hm⟩ := h
  unfold accumulate
  rw [hl]
  split
  · exact ⟨by simp, Memory.holds_write_end b hm⟩
  · exact ⟨hl, hm⟩

/-- R274: a decode attempt scans the held bytes. -/
theorem State.accHolds_scan {s : State} {l : List Byte} (h : s.accHolds l) (stamp : Nat) :
    Memory.bytes stamp s.acc s.accLen = l := by
  rw [h.1]
  exact Memory.bytes_of_holds stamp h.2

end Sys2Proof.Machine
end

