-- ==== Sys2Proof/Laws/Slip.lean ====
section
/-! SUPPORT. What the SLIP framer's shared loops do (spec/40_slip.md R130, R134, R135), once: the
encoder's loop against the frame of R82, and the decoder's scan over delimiters, over a stuffed body
and over a concatenation. -/

namespace Sys2Proof.Machine

@[simp] theorem stuffed_nil : stuffed [] = [] := rfl

theorem stuffed_cons (b : Byte) (bs : List Byte) : stuffed (b :: bs) =
    (if b = 0xC0#8 then [0xDB#8, 0xDC#8] else if b = 0xDB#8 then [0xDB#8, 0xDD#8] else [b]) ++
      stuffed bs := rfl

@[simp] theorem stuffed_append (as bs : List Byte) :
    stuffed (as ++ bs) = stuffed as ++ stuffed bs := by simp [stuffed]

/-- The stuffed length of R131. -/
theorem stuffed_length (bs : List Byte) : (stuffed bs).length = bs.length + specialCount bs := by
  induction bs with
  | nil => rfl
  | cons b bs ih =>
    rw [stuffed_cons, List.length_append, ih]
    by_cases h1 : b = 0xC0#8
    · simp [h1, specialCount]; omega
    · by_cases h2 : b = 0xDB#8
      · simp [h2, specialCount]; omega
      · simp [h1, h2, specialCount]; omega

theorem emit_ok {cap : Nat} {e : Enc} (v : Byte) (h : e.pos < cap) :
    emit cap v e = .ok { e with pos := e.pos + 1, out := e.out ++ [v] } := by
  simp [emit, Nat.not_le.mpr h]

theorem emit_error {cap : Nat} {e : Enc} (v : Byte) (h : cap ≤ e.pos) :
    emit cap v e = .error e := by simp [emit, h]

/-- The encoder's loop when the body fits (R130). -/
theorem emitAll_ok {cap : Nat} (bs : List Byte) (e : Enc)
    (h : e.pos + (stuffed bs).length ≤ cap) :
    emitAll cap bs e = .ok { pos := e.pos + (stuffed bs).length, cur := e.cur + bs.length,
                             out := e.out ++ stuffed bs } := by
  induction bs generalizing e with
  | nil => simp [emitAll]
  | cons b bs ih =>
    rw [stuffed_cons] at h ⊢
    by_cases h1 : b = 0xC0#8
    · simp only [h1, if_true, List.length_append, List.length_cons, List.length_nil] at h
      simp only [emitAll, emitSymbol, slipEND, slipESC, slipESCEND, h1, if_true]
      rw [emit_ok _ (by omega)]
      simp only
      rw [emit_ok _ (by simp only; omega)]
      simp only
      rw [ih _ (by simp only; omega)]
      simp [Nat.add_assoc, Nat.add_comm, Nat.add_left_comm]
      omega
    · by_cases h2 : b = 0xDB#8
      · simp only [h2, if_true, List.length_append] at h
        simp at h
        simp only [emitAll, emitSymbol, slipEND, slipESC, slipESCESC, h2, if_true]
        rw [if_neg (by decide), emit_ok _ (by omega)]
        simp only
        rw [emit_ok _ (by simp only; omega)]
        simp only
        rw [ih _ (by simp only; omega)]
        simp [Nat.add_assoc, Nat.add_comm, Nat.add_left_comm]
        omega
      · simp only [h1, h2, if_false, List.length_append] at h
        simp at h
        simp only [emitAll, emitSymbol, slipEND, slipESC, h1, h2, if_false]
        rw [emit_ok _ (by omega)]
        simp only
        rw [ih _ (by simp only; omega)]
        simp [Nat.add_assoc, Nat.add_comm]

/-- The encoder's loop when the body does not fit (R132). -/
theorem emitAll_error {cap : Nat} (bs : List Byte) (e : Enc) (he : e.pos ≤ cap)
    (h : cap < e.pos + (stuffed bs).length) : ∃ e', emitAll cap bs e = .error e' := by
  induction bs generalizing e with
  | nil => simp at h; omega
  | cons b bs ih =>
    by_cases hs : emitSymbol cap b e = .error e ∨ ∃ e', emitSymbol cap b e = .error e'
    · obtain hs | ⟨e', hs⟩ := hs
      · exact ⟨e, by simp [emitAll, hs]⟩
      · exact ⟨e', by simp [emitAll, hs]⟩
    · have hok : ∃ e', emitSymbol cap b e = .ok e' ∧ e'.pos ≤ cap ∧
          e'.pos + (stuffed bs).length = e.pos + (stuffed (b :: bs)).length := by
        rw [stuffed_cons]
        unfold emitSymbol emit at hs ⊢
        simp only [slipEND, slipESC, slipESCEND, slipESCESC] at hs ⊢
        by_cases h1 : b = 0xC0#8
        · by_cases hc : cap ≤ e.pos
          · simp [h1, hc] at hs
          · by_cases hc2 : cap ≤ e.pos + 1
            · simp [h1, hc, hc2] at hs
            · refine ⟨_, by simp [h1, hc, hc2]; rfl, ?_, ?_⟩ <;> simp [h1] <;> omega
        · by_cases h2 : b = 0xDB#8
          · by_cases hc : cap ≤ e.pos
            · simp [h2, hc] at hs
            · by_cases hc2 : cap ≤ e.pos + 1
              · simp [h2, hc, hc2] at hs
              · refine ⟨_, by simp [h2, hc, hc2]; rfl, ?_, ?_⟩ <;> simp [h2] <;> omega
          · by_cases hc : cap ≤ e.pos
            · simp [h1, h2, hc] at hs
            · refine ⟨_, by simp [h1, h2, hc]; rfl, ?_, ?_⟩ <;> simp [h1, h2] <;> omega
      obtain ⟨e', h1, h2, h3⟩ := hok
      obtain ⟨e'', h4⟩ := ih { e' with cur := e'.cur + 1 } h2 (by simp only; omega)
      exact ⟨e'', by simp [emitAll, h1, h4]⟩

/-- SLIP_ENC's algorithm when the frame fits (R130, R131). -/
theorem slipEncode_ok {cap : Nat} {input : List Byte}
    (h : input.length + 2 + specialCount input ≤ cap) :
    slipEncode cap input = .ok { pos := input.length + 2 + specialCount input,
                                 cur := input.length, out := slipFrame input } := by
  have hl := stuffed_length input
  unfold slipEncode
  rw [emit_ok _ (by simp only; omega)]
  simp only
  rw [emitAll_ok _ _ (by simp only; omega)]
  simp only
  rw [emit_ok _ (by simp only; omega)]
  simp only [slipFrame, slipEND, Except.ok.injEq, Enc.mk.injEq]
  refine ⟨by omega, by omega, by simp⟩

/-- SLIP_ENC's algorithm when the frame does not fit (R132). -/
theorem slipEncode_error {cap : Nat} {input : List Byte}
    (h : cap < input.length + 2 + specialCount input) :
    ∃ e, slipEncode cap input = .error e := by
  have hl := stuffed_length input
  unfold slipEncode
  by_cases h0 : cap ≤ 0
  · rw [emit_error _ h0]
    exact ⟨_, rfl⟩
  · rw [emit_ok _ (by simp only; omega)]
    simp only
    by_cases h1 : 1 + (stuffed input).length ≤ cap
    · rw [emitAll_ok _ _ (by simp only; omega)]
      simp only
      rw [emit_error _ (by simp only; omega)]
      exact ⟨_, rfl⟩
    · obtain ⟨e', he⟩ := emitAll_error (cap := cap) input
        { pos := 0 + 1, cur := 0, out := [] ++ [slipEND] } (by simp only; omega)
        (by simp only; omega)
      simp only [he]
      exact ⟨_, rfl⟩

/-! The decoder. -/

/-- A scan of a concatenation: the second part is scanned from the registers the first part left,
unless the first part's scan ended (R142). -/
theorem decScan_append (cap : Nat) (p q : List Byte) (d : Dec) :
    decScan cap (p ++ q) d =
      match decScan cap p d with
      | (d', .more) => decScan cap q d'
      | r => r := by
  induction p generalizing d with
  | nil => rfl
  | cons b p ih =>
    simp only [List.cons_append, decScan]
    cases h : decFeed cap d b with
    | mk d' ev => cases ev <;> simp [ih]

/-- Delimiters met before any data are skipped (R136). -/
theorem decScan_delims (cap k : Nat) (d : Dec) (he : d.esc = false) (hp : d.pos = 0) :
    decScan cap (delims k) d = ({ d with cur := d.cur + k }, .more) := by
  induction k generalizing d with
  | zero => simp [delims, decScan]
  | succ k ih =>
    simp only [delims, List.replicate_succ, decScan]
    have h1 : decFeed cap d 0xC0#8 = ({ d with cur := d.cur + 1 }, .more) := by
      simp [decFeed, decStep, he, hp, slipEND]
    rw [h1]
    simp only
    have := ih { d with cur := d.cur + 1 } he hp
    simp only [delims] at this
    rw [this]
    simp [Nat.add_comm]
    omega

/-- The symbol of one data byte emits that byte (R134, R141). -/
theorem decScan_symbol {cap : Nat} {d : Dec} {l : List Byte} (b : Byte) (he : d.esc = false)
    (hp : d.pos = l.length) (ho : d.out = Memory.ofBytes l) (hc : l.length < cap) :
    decScan cap (stuffed [b]) d =
      ({ d with pos := l.length + 1, cur := d.cur + (stuffed [b]).length,
                out := Memory.ofBytes (l ++ [b]) }, .more) := by
  obtain ⟨esc, pos, cur, out⟩ := d
  simp only at he hp ho
  subst he hp ho
  by_cases h1 : b = 0xC0#8
  · subst h1
    simp [stuffed, decScan, decFeed, decStep, decPut, slipEND, slipESC, slipESCEND,
      Nat.not_le.mpr hc, Memory.write_ofBytes_end]
  · by_cases h2 : b = 0xDB#8
    · subst h2
      simp [stuffed, decScan, decFeed, decStep, decPut, slipEND, slipESC, slipESCEND, slipESCESC,
        Nat.not_le.mpr hc, Memory.write_ofBytes_end]
    · simp [stuffed, h1, h2, decScan, decFeed, decStep, decPut, slipEND, slipESC,
        Nat.not_le.mpr hc, Memory.write_ofBytes_end]

/-- A stuffed body that fits emits the body (R134, R141). -/
theorem decScan_stuffed {cap : Nat} {d : Dec} {l : List Byte} (bs : List Byte) (he : d.esc = false)
    (hp : d.pos = l.length) (ho : d.out = Memory.ofBytes l) (hc : l.length + bs.length ≤ cap) :
    decScan cap (stuffed bs) d =
      ({ d with pos := l.length + bs.length, cur := d.cur + (stuffed bs).length,
                out := Memory.ofBytes (l ++ bs) }, .more) := by
  induction bs generalizing d l with
  | nil =>
    obtain ⟨esc, pos, cur, out⟩ := d
    simp only at hp ho
    subst hp ho
    simp [decScan]
  | cons b bs ih =>
    simp only [List.length_cons] at hc
    rw [show b :: bs = [b] ++ bs from rfl, stuffed_append, decScan_append,
      decScan_symbol b he hp ho (by omega)]
    simp only
    rw [ih (d := { d with pos := l.length + 1, cur := d.cur + (stuffed [b]).length,
                          out := Memory.ofBytes (l ++ [b]) })
      (l := l ++ [b]) he (by simp) rfl (by simp; omega)]
    simp [Nat.add_assoc, Nat.add_comm, Nat.add_left_comm]

/-- The scan of delimiters and a stuffed body that fits, from the start (R135). -/
theorem slipDecode_body {cap : Nat} (k : Nat) {bs : List Byte} (hc : bs.length ≤ cap) :
    decScan cap (delims k ++ stuffed bs) decStart =
      ({ esc := false, pos := bs.length, cur := k + (stuffed bs).length,
         out := Memory.ofBytes bs }, .more) := by
  rw [decScan_append, decScan_delims cap k decStart rfl rfl]
  simp only
  rw [decScan_stuffed (l := []) bs rfl rfl rfl (by simpa using hc)]
  simp [decStart]

end Sys2Proof.Machine
end

