-- ==== Sys2Proof/Laws/Send.lean ====
section
/-! SUPPORT. What the builders and the transmit path answer, once: the builders against the layouts of
spec/30_encoding.md R85 to R95, TX_FRAME's effect and IP_BUILD-then-TX_FRAME (spec/47_rx_dispatch.md
R285, R286). -/

namespace Sys2Proof.Machine

@[simp] theorem length_ipPacket (cfg : Config.Params) (src dst : IP4) (protocol : Byte)
    (payload : List Byte) :
    (ipPacket cfg src dst protocol payload).length = 20 + payload.length := by
  simp [ipPacket, ipHeaderBytes]
  omega

@[simp] theorem length_icmpMessage (type : Byte) (identifier sequence : U16)
    (payload : List Byte) :
    (icmpMessage type identifier sequence payload).length = 8 + payload.length := by
  simp [icmpMessage, icmpBytes]
  omega

@[simp] theorem length_tcpSegment (d : SegDesc) :
    (tcpSegment d).length = 20 + d.payload.length := by
  simp [tcpSegment, tcpBytes]
  omega

theorem ipHeaderZero_eq (cfg : Config.Params) (src dst : IP4) (protocol : Byte) (n : Nat) :
    ipHeaderZero cfg src dst protocol n = ipHeaderBytes cfg src dst protocol n 0x0000#16 := rfl

/-- IP_BUILD's algorithm against the layout of R85. -/
theorem ipBuildBytes_eq (cfg : Config.Params) (src dst : IP4) (protocol : Byte)
    (payload : List Byte) (cap : Nat) :
    ipBuildBytes cfg src dst protocol payload cap =
      if 65535 < 20 + payload.length then .error .lenRange
      else if cap < 20 + payload.length then .error .outOverflow
      else .ok { bytes := ipPacket cfg src dst protocol payload,
                 sum := csumSum (ipHeaderZero cfg src dst protocol payload.length) } := by
  have h (v : U16) : patch16 (ipHeaderZero cfg src dst protocol payload.length) 10 v =
      ipHeaderBytes cfg src dst protocol payload.length v := by
    simp [ipHeaderZero, ipHeaderBytes, patch16, be16, IP4.bytes, len16, Config.ipTos,
      Config.ipTtl, Config.ipFlagsFrag]
  simp only [ipBuildBytes, h]
  rfl

/-- ICMP_BUILD's algorithm against the layout of R89. -/
theorem icmpBuildBytes_eq (type : Byte) (identifier sequence : U16) (payload : List Byte)
    (cap : Nat) :
    icmpBuildBytes type identifier sequence payload cap =
      if cap < 8 + payload.length then .error .outOverflow
      else .ok { bytes := icmpMessage type identifier sequence payload,
                 sum := csumSum (icmpMessageZero type identifier sequence payload) } := by
  simp [icmpBuildBytes, icmpMessage, icmpBytes, icmpMessageZero, patch16, be16]

/-- TCP_BUILD's algorithm against the layout of R92. -/
theorem tcpBuildBytes_eq (d : SegDesc) (cap : Nat) :
    tcpBuildBytes d cap =
      if 65535 < 20 + d.payload.length then .error .lenRange
      else if cap < 20 + d.payload.length then .error .outOverflow
      else .ok { bytes := tcpSegment d, sum := csumSum (tcpCsumInput d) } := by
  have h (v : U16) : patch16 (tcpSegmentZero d) 16 v = tcpBytes d v := by
    simp [tcpSegmentZero, tcpBytes, patch16, be16, be32, offFlagsWord, dataOffset5]
  have h2 : tcpSegmentZero d = tcpBytes d 0x0000#16 := by
    simp [tcpSegmentZero, tcpBytes, be16, be32, offFlagsWord, dataOffset5]
  have h3 : tcpCsumInput d =
      pseudoBytes d.srcIp d.dstIp 6#8 (20 + d.payload.length) ++ tcpBytes d 0x0000#16 := by
    rw [← h2]
    rfl
  rw [tcpBuildBytes, h, tcpSegment, h3]

theorem State.sameButSending.refl (s : State) : s.sameButSending s := ⟨_, _, _, _, rfl⟩

theorem State.sameButSending.trans {s t u : State} (h : s.sameButSending t)
    (h' : t.sameButSending u) : s.sameButSending u := by
  obtain ⟨_, _, _, _, rfl⟩ := h
  obtain ⟨_, _, _, _, rfl⟩ := h'
  exact ⟨_, _, _, _, rfl⟩

/-- TX_FRAME's effect when the frame fits (R285). -/
theorem transmit_ok {bs : List Byte} {s : State} (h : frameFits s.cfg bs) :
    transmit bs s =
      ({ s with encPos := bs.length + 2 + specialCount bs, encCur := bs.length, txBuf := [],
                txLine := s.txLine ++ slipFrame bs }, .ok (bs.length + 2 + specialCount bs)) := by
  have hb := Memory.bytes_ofBytes s.fresh (slipFrame bs)
  rw [show (slipFrame bs).length = bs.length + 2 + specialCount bs by
    simp [slipFrame, stuffed_length]; omega] at hb
  simp only [transmit, slipEncode_ok h]
  simp [State.drainTxBuf, State.writeLine, State.setEnc, State.fillTxBuf, State.releaseTxBuf, hb]

/-- TX_FRAME's effect when it does not (R286): no byte is written. -/
theorem transmit_error {bs : List Byte} {s : State} (h : ¬ frameFits s.cfg bs) :
    ∃ p c, transmit bs s =
      ({ s with encPos := p, encCur := c, txBuf := [] }, .error .outOverflow) := by
  obtain ⟨e, he⟩ := slipEncode_error (cap := s.cfg.txCap) (input := bs) (by simpa using h)
  exact ⟨e.pos, e.cur, by simp only [transmit, he]; rfl⟩

/-- TX_FRAME's effect when the frame fits, up to the registers and buffers nothing is said of. -/
theorem transmit_sends {bs : List Byte} {s : State} (h : frameFits s.cfg bs) :
    ∃ w n, s.sameButSending w ∧ transmit bs s =
      ({ w with txLine := s.txLine ++ slipFrame bs }, .ok n) := by
  rw [transmit_ok h]
  exact ⟨{ s with encPos := bs.length + 2 + specialCount bs, encCur := bs.length, txBuf := [] }, _,
    ⟨_, _, _, _, rfl⟩, rfl⟩

/-- The same for a failure. -/
theorem transmit_fails {bs : List Byte} {s : State} (h : ¬ frameFits s.cfg bs) :
    ∃ w, s.sameButSending w ∧ transmit bs s = (w, .error .outOverflow) := by
  obtain ⟨p, c, ht⟩ := transmit_error h
  exact ⟨_, ⟨_, _, _, _, rfl⟩, ht⟩

/-- A write of the checksum register changes nothing that is said of. -/
theorem State.sameButSending_sum (s : State) (n : Nat) : s.sameButSending { s with sum := n } :=
  ⟨_, _, _, _, rfl⟩

/-- IP_BUILD then TX_FRAME when neither fails. -/
theorem sendPacket_ok {src dst : IP4} {protocol : Byte} {m : Built} {s : State}
    (h1 : packetFits s.cfg m.bytes.length)
    (h2 : frameFits s.cfg (ipPacket s.cfg src dst protocol m.bytes)) :
    ∃ w n, s.sameButSending w ∧ sendPacket src dst protocol m s =
      ({ w with txLine := s.txLine ++ slipFrame (ipPacket s.cfg src dst protocol m.bytes) },
        .ok n) := by
  simp only [sendPacket, ipBuildBytes_eq]
  rw [if_neg (by have := h1.1; omega), if_neg (by have := h1.2; omega)]
  obtain ⟨w, n, hw, ht⟩ := transmit_sends (s := { s with
    sum := csumSum (ipHeaderZero s.cfg src dst protocol m.bytes.length) }) h2
  exact ⟨w, n, (s.sameButSending_sum _).trans hw, ht⟩

/-- IP_BUILD then TX_FRAME when one of them fails: nothing is transmitted. -/
theorem sendPacket_error {src dst : IP4} {protocol : Byte} {m : Built} {s : State}
    (h : ¬ (packetFits s.cfg m.bytes.length ∧
      frameFits s.cfg (ipPacket s.cfg src dst protocol m.bytes))) :
    ∃ w st, s.sameButSending w ∧ st ≠ .ok ∧ sendPacket src dst protocol m s = (w, .error st) := by
  simp only [sendPacket, ipBuildBytes_eq]
  by_cases h1 : 65535 < 20 + m.bytes.length
  · rw [if_pos h1]
    exact ⟨_, _, s.sameButSending_sum _, by simp, rfl⟩
  · by_cases h2 : s.cfg.pktCap < 20 + m.bytes.length
    · rw [if_neg h1, if_pos h2]
      exact ⟨_, _, s.sameButSending_sum _, by simp, rfl⟩
    · rw [if_neg h1, if_neg h2]
      obtain ⟨w, hw, ht⟩ := transmit_fails (s := { s with
          sum := csumSum (ipHeaderZero s.cfg src dst protocol m.bytes.length) })
        (bs := ipPacket s.cfg src dst protocol m.bytes)
        (fun hf => h ⟨⟨by omega, by omega⟩, hf⟩)
      exact ⟨w, _, (s.sameButSending_sum _).trans hw, by simp, ht⟩

end Sys2Proof.Machine
end

