-- ==== Sys2Proof/Laws/Table.lean ====
section
/-! SUPPORT. What the connection table's scans and the state machine's step can do, once
(spec/46_tcp_fsm.md R228 to R240). -/

namespace Sys2Proof.Machine

theorem ConnState.isClosing_iff (c : ConnState) :
    c.isClosing = false ↔ c = .listen ∨ c = .synReceived ∨ c = .established := by
  cases c <;> simp [ConnState.isClosing]

/-- Reclaim, slot by slot (R229). -/
theorem reclaim_eq (tab : Table) : reclaim tab = reclaimed tab := by
  unfold reclaim reclaimed
  congr 1
  funext o
  cases o with
  | none => rfl
  | some r =>
    cases h : r.state <;> simp [reclaimSlot, ConnState.isClosing, survives, h, Option.filter]

@[simp] theorem length_reclaim (tab : Table) : (reclaim tab).length = tab.length := by
  simp [reclaim]

/-- A slot after reclaim is EMPTY or holds the record it held, outside the closing set (R229). -/
theorem reclaim_getElem? {tab : Table} {k : Nat} {r : Record}
    (h : (reclaim tab)[k]? = some (some r)) :
    tab[k]? = some (some r) ∧ r.state.isClosing = false := by
  simp only [reclaim, List.getElem?_map, Option.map_eq_some_iff] at h
  obtain ⟨o, h1, h2⟩ := h
  cases o with
  | none => simp [reclaimSlot] at h2
  | some r' =>
    cases hc : r'.state.isClosing <;> simp [reclaimSlot, hc] at h2
    subst h2
    exact ⟨h1, hc⟩

theorem Record.hasKey_iff (r : Record) (sip dip : IP4) (sp dp : U16) :
    r.hasKey sip dip sp dp = true ↔
      r.srcIp = sip ∧ r.dstIp = dip ∧ r.srcPort = sp ∧ r.dstPort = dp := by
  simp [Record.hasKey, and_assoc]

/-- A lookup that finds a record finds the lowest slot that holds one with the 4-tuple (R230). -/
theorem lookup_some {sip dip : IP4} {sp dp : U16} {tab : Table} {k j : Nat} {r : Record}
    (h : lookup sip dip sp dp tab k = some (j, r)) :
    k ≤ j ∧ Table.matchesAt tab (j - k) sip dip sp dp r ∧
      ∀ i r', i < j - k → ¬ Table.matchesAt tab i sip dip sp dp r' := by
  induction tab generalizing k with
  | nil => simp [lookup] at h
  | cons o tab ih =>
    have next (hn : lookup sip dip sp dp tab (k + 1) = some (j, r))
        (h0 : ∀ r', ¬ Table.matchesAt (o :: tab) 0 sip dip sp dp r') :
        k ≤ j ∧ Table.matchesAt (o :: tab) (j - k) sip dip sp dp r ∧
          ∀ i r', i < j - k → ¬ Table.matchesAt (o :: tab) i sip dip sp dp r' := by
      obtain ⟨h1, h2, h3⟩ := ih hn
      have hj : j - k = j - (k + 1) + 1 := by omega
      refine ⟨by omega, ?_, ?_⟩
      · rw [hj]
        exact h2
      · intro i r' hi
        cases i with
        | zero => exact h0 r'
        | succ i => exact h3 i r' (by omega)
    cases o with
    | none =>
      refine next (by simpa [lookup] using h) ?_
      intro r' hm
      simp [Table.matchesAt] at hm
    | some q =>
      simp only [lookup] at h
      split at h
      · rename_i hq
        simp only [Option.some.injEq, Prod.mk.injEq] at h
        obtain ⟨rfl, rfl⟩ := h
        have := (Record.hasKey_iff q sip dip sp dp).mp hq
        exact ⟨Nat.le_refl _, by simpa [Table.matchesAt] using this, by simp⟩
      · rename_i hq
        refine next h ?_
        intro r' hm
        simp only [Table.matchesAt, List.getElem?_cons_zero, Option.some.injEq] at hm
        obtain ⟨rfl, hk⟩ := hm
        exact hq ((Record.hasKey_iff q sip dip sp dp).mpr hk)

/-- A lookup fails exactly when no slot holds a record with the 4-tuple (R230). -/
theorem lookup_none {sip dip : IP4} {sp dp : U16} {tab : Table} {k : Nat} :
    lookup sip dip sp dp tab k = none ↔ Table.noMatch tab sip dip sp dp := by
  induction tab generalizing k with
  | nil => simp [lookup, Table.noMatch, Table.matchesAt]
  | cons o tab ih =>
    have hcons : Table.noMatch (o :: tab) sip dip sp dp ↔
        (∀ r, ¬ Table.matchesAt (o :: tab) 0 sip dip sp dp r) ∧
          Table.noMatch tab sip dip sp dp := by
      constructor
      · exact fun h => ⟨fun r => h 0 r, fun i r => h (i + 1) r⟩
      · rintro ⟨h0, h1⟩ i r
        cases i with
        | zero => exact h0 r
        | succ i => exact h1 i r
    rw [hcons]
    cases o with
    | none => simp [lookup, ih, Table.matchesAt]
    | some q =>
      have hk := Record.hasKey_iff q sip dip sp dp
      have h0 : (∀ r, ¬ Table.matchesAt (some q :: tab) 0 sip dip sp dp r) ↔
          ¬ q.hasKey sip dip sp dp = true := by
        rw [hk]
        simp [Table.matchesAt]
      rw [h0, lookup]
      split <;> simp_all

/-- The lowest EMPTY slot (R231). -/
theorem firstFree_some {tab : Table} {k j : Nat} (h : firstFree tab k = some j) :
    k ≤ j ∧ tab[j - k]? = some none ∧ ∀ i, i < j - k → ∃ r, tab[i]? = some (some r) := by
  induction tab generalizing k with
  | nil => simp [firstFree] at h
  | cons o tab ih =>
    cases o with
    | none =>
      simp only [firstFree, Option.some.injEq] at h
      subst h
      simp
    | some q =>
      obtain ⟨h1, h2, h3⟩ := ih (by simpa [firstFree] using h)
      have hj : j - k = j - (k + 1) + 1 := by omega
      refine ⟨by omega, by rw [hj]; exact h2, ?_⟩
      intro i hi
      cases i with
      | zero => exact ⟨q, rfl⟩
      | succ i => exact h3 i (by omega)

/-- No slot is free exactly when every slot is occupied (R231). -/
theorem firstFree_none {tab : Table} {k : Nat} :
    firstFree tab k = none ↔ ∀ o ∈ tab, o ≠ none := by
  induction tab generalizing k with
  | nil => simp [firstFree]
  | cons o tab ih => cases o <;> simp [firstFree, ih]

/-- The rows of the state machine's step, each with its State and Trigger (R225, R233): everything
one application can do. -/
theorem fsmStep_cases (cfg : Config.Params) (hdr : TcpHdr) (plen : Nat) (app : List Byte)
    (r : Record) :
    (r.state = .listen ∧
      ((tcpFlagsOf hdr.offFlags).syn && !(tcpFlagsOf hdr.offFlags).ack) = true ∧
      fsmStep cfg hdr plen app r = fsmRow1 cfg hdr r) ∨
    (r.state = .synReceived ∧ (tcpFlagsOf hdr.offFlags).ack = true ∧
      fsmStep cfg hdr plen app r = fsmRow2 r) ∨
    (r.state = .established ∧ 0 < plen ∧
      fsmStep cfg hdr plen app r = fsmRow3 cfg hdr plen app r) ∨
    (r.state = .established ∧ plen = 0 ∧ (tcpFlagsOf hdr.offFlags).fin = true ∧
      fsmStep cfg hdr plen app r = fsmRow4 cfg hdr r) ∨
    (r.state = .lastAck ∧ (tcpFlagsOf hdr.offFlags).ack = true ∧
      fsmStep cfg hdr plen app r = fsmRow6 r) ∨
    fsmStep cfg hdr plen app r = fsmNoRow r := by
  unfold fsmStep
  cases r.state <;> simp only [reduceCtorEq, false_and, true_and, false_or, or_true]
  · split <;> simp_all
  · split <;> simp_all
  · split
    · simp_all
    · split
      · exact .inr (.inl ⟨by omega, ‹_›, rfl⟩)
      · exact .inr (.inr rfl)
  · split <;> simp_all

/-- The state machine never rewrites a key (R234 to R240). -/
theorem fsmStep_key (cfg : Config.Params) (hdr : TcpHdr) (plen : Nat) (app : List Byte)
    (r : Record) : (fsmStep cfg hdr plen app r).record.sameKey r := by
  rcases fsmStep_cases cfg hdr plen app r with
    ⟨_, _, h⟩ | ⟨_, _, h⟩ | ⟨_, _, h⟩ | ⟨_, _, _, h⟩ | ⟨_, _, h⟩ | h <;> rw [h]
  case inr.inr.inr.inl =>
    unfold fsmRow4
    cases cfg.autoClose <;> simp [Record.sameKey, fsmRow5]
  all_goals simp [Record.sameKey, fsmRow1, fsmRow2, fsmRow3, fsmRow6, fsmNoRow]

/-- At most two descriptors answer a segment (R228). -/
theorem fsmStep_tx_length (cfg : Config.Params) (hdr : TcpHdr) (plen : Nat) (app : List Byte)
    (r : Record) : (fsmStep cfg hdr plen app r).tx.length ≤ 2 := by
  rcases fsmStep_cases cfg hdr plen app r with
    ⟨_, _, h⟩ | ⟨_, _, h⟩ | ⟨_, _, h⟩ | ⟨_, _, _, h⟩ | ⟨_, _, h⟩ | h <;> rw [h]
  case inr.inr.inr.inl =>
    unfold fsmRow4
    cases cfg.autoClose <;> simp
  all_goals simp [fsmRow1, fsmRow2, fsmRow3, fsmRow6, fsmNoRow]

/-- What TCP_SEG_IN can do to the table (R228): route to the lowest matching slot, open a
connection in the lowest EMPTY slot, or only reclaim. -/
theorem segInTable_cases (cfg : Config.Params) (sip dip : IP4) (hdr : TcpHdr) (plen : Nat)
    (app : List Byte) (tab : Table) :
    (∃ slot r, lookup sip dip hdr.srcPort hdr.dstPort (reclaim tab) 0 = some (slot, r) ∧
      segInTable cfg sip dip hdr plen app tab =
        ((reclaim tab).set slot (some (fsmStep cfg hdr plen app r).record),
          .ok { slot := slot, row := (fsmStep cfg hdr plen app r).row,
                tx := (fsmStep cfg hdr plen app r).tx })) ∨
    (lookup sip dip hdr.srcPort hdr.dstPort (reclaim tab) 0 = none ∧
      ((∃ slot, ((tcpFlagsOf hdr.offFlags).syn && !(tcpFlagsOf hdr.offFlags).ack) = true ∧
          firstFree (reclaim tab) 0 = some slot ∧
          segInTable cfg sip dip hdr plen app tab =
            ((reclaim tab).set slot
                (some (fsmStep cfg hdr plen app (newRecord cfg sip dip hdr)).record),
              .ok { slot := slot,
                    row := (fsmStep cfg hdr plen app (newRecord cfg sip dip hdr)).row,
                    tx := (fsmStep cfg hdr plen app (newRecord cfg sip dip hdr)).tx })) ∨
        (((tcpFlagsOf hdr.offFlags).syn && !(tcpFlagsOf hdr.offFlags).ack) = true ∧
          firstFree (reclaim tab) 0 = none ∧
          segInTable cfg sip dip hdr plen app tab = (reclaim tab, .error .tableFull)) ∨
        (((tcpFlagsOf hdr.offFlags).syn && !(tcpFlagsOf hdr.offFlags).ack) = false ∧
          segInTable cfg sip dip hdr plen app tab = (reclaim tab, .error .noConn)))) := by
  unfold segInTable
  simp only
  cases hl : lookup sip dip hdr.srcPort hdr.dstPort (reclaim tab) 0 with
  | some p =>
    obtain ⟨slot, r⟩ := p
    exact .inl ⟨slot, r, rfl, rfl⟩
  | none =>
    refine .inr ⟨rfl, ?_⟩
    simp only
    cases hs : (tcpFlagsOf hdr.offFlags).syn && !(tcpFlagsOf hdr.offFlags).ack with
    | false => exact .inr (.inr ⟨rfl, by simp⟩)
    | true =>
      cases hf : firstFree (reclaim tab) 0 with
      | none => exact .inr (.inl ⟨rfl, rfl, by simp⟩)
      | some slot => exact .inl ⟨slot, rfl, rfl, by simp⟩

/-- No TCP_SEG_IN changes the number of slots. -/
theorem length_segInTable (cfg : Config.Params) (sip dip : IP4) (hdr : TcpHdr) (plen : Nat)
    (app : List Byte) (tab : Table) :
    (segInTable cfg sip dip hdr plen app tab).1.length = tab.length := by
  rcases segInTable_cases cfg sip dip hdr plen app tab with
    ⟨_, _, _, h⟩ | ⟨_, ⟨_, _, _, h⟩ | ⟨_, _, h⟩ | ⟨_, h⟩⟩ <;> simp [h]

/-- The record TCP_CLOSE acts on (R243). -/
theorem closeTarget_some {s : State} {slot : Nat} {r : Record} (h : closeTarget s slot = some r) :
    slot < s.cfg.tableCap ∧ s.tab[slot]? = some (some r) ∧ r.state = .closeWait := by
  unfold closeTarget at h
  split at h
  · exact absurd h (by simp)
  · rename_i hc
    refine ⟨by omega, ?_⟩
    split at h
    · rename_i q hq
      split at h
      · rename_i hs
        simp only [Option.some.injEq] at h
        subst h
        exact ⟨hq, hs⟩
      · exact absurd h (by simp)
    · exact absurd h (by simp)

end Sys2Proof.Machine
end

