-- ==== Sys2Proof/Tests/Slice0.lean ====
section
/-! SUPPORT. The model's own tests: the smoke test of WellFormed, the decoding of a written-out packet
for every constructor, vectors of spec/95_test_vectors.md (named in each docstring), and a witness for
the hypotheses of every obligation that has some. -/

namespace Sys2Proof.Tests

open Sys2Proof Sys2Proof.Machine

/-- 10.0.0.1. -/
def hostA : IP4 := { a := 10#8, b := 0#8, c := 0#8, d := 1#8 }

/-- 10.0.0.2. -/
def hostB : IP4 := { a := 10#8, b := 0#8, c := 0#8, d := 2#8 }

/-- 0.0.0.0. -/
def hostZ : IP4 := { a := 0#8, b := 0#8, c := 0#8, d := 0#8 }

/-- An output buffer apart from the input. -/
def room (n : Nat) : OutBuf := { cap := n, overlaps := false }

/-- An output buffer that overlaps the input. -/
def shared (n : Nat) : OutBuf := { cap := n, overlaps := true }

/-- The operation ends with this status. -/
def ends (o : Answer) (st : Status) : Bool :=
  match o with
  | .next t => decide (t.status = st)
  | .fault _ => false
  | .refused _ => false

/-- The operation ends OK with these output bytes and their number as its count. -/
def writes (o : Answer) (bs : List Byte) : Bool :=
  match o with
  | .next t => decide (t.status = .ok ∧ t.count = bs.length ∧ t.out = Memory.ofBytes bs)
  | .fault _ => false
  | .refused _ => false

/-- The operation ends with this status and these results. -/
def yields (o : Answer) (st : Status) (r : Result) : Bool :=
  match o with
  | .next t => decide (t.status = st ∧ t.result = r)
  | .fault _ => false
  | .refused _ => false

/-- The operation ends with this status, and these bytes on the line. -/
def sends (o : Answer) (st : Status) (line : List Byte) : Bool :=
  match o with
  | .next t => decide (t.status = st ∧ t.txLine = line)
  | .fault _ => false
  | .refused _ => false

/-- The operation leaves this slot 0. -/
def leaves (o : Answer) (slot : Option Record) : Bool :=
  match o with
  | .next t => decide (t.tab.head? = some slot)
  | .fault _ => false
  | .refused _ => false

/-- The operation is refused for this reason. -/
def refuses (o : Answer) (why : Refusal) : Bool :=
  match o with
  | .next _ => false
  | .fault _ => false
  | .refused r => decide (r = why)

/-! WellFormed. -/

theorem test_wf_nat_too_long : (Instr.tcpClose (2 ^ 32)).wf = false := by decide
theorem test_wf_nat_longest : (Instr.tcpClose (2 ^ 32 - 1)).wf = true := by decide
theorem test_wf_cap_too_long : (Instr.slipEnc [] (room (2 ^ 32))).wf = false := by decide
theorem test_wf_plen_too_long :
    (Instr.tcpSegIn hostA hostB default (2 ^ 32) []).wf = false := by decide
theorem test_wf_bytes_too_long (bs : List Byte) (h : 2 ^ 32 ≤ bs.length) :
    (Instr.csum bs).wf = false := by
  simp only [Instr.wf, bytesFit, natFits, decide_eq_false_iff_not]
  omega
theorem test_wf_handler : (Instr.rxPoll (.host 1#8)).wf = false := by decide
theorem test_wf_handler_least : (Instr.rxPoll (.host 2#8)).wf = true := by decide
theorem test_wf_invalid : (Instr.slipInvalid 0xDC#8).wf = false := by decide
theorem test_wf_invalid_esc : (Instr.slipInvalid 0xDD#8).wf = false := by decide
theorem test_wf_invalid_end : (Instr.slipInvalid 0xC0#8).wf = true := by decide

/-! Decoding: one written-out packet per constructor (the select codes of R110, R112 and R81, the
operands in the order of each operation's rule; log 1 and 3). -/

/-- Four zero bytes and one: the number 1 in 32 bits. -/
def one32 : List Byte := [0x00#8, 0x00#8, 0x00#8, 0x01#8]

/-- 10.0.0.1 then 10.0.0.2. -/
def addrs : List Byte := [0x0A#8, 0x00#8, 0x00#8, 0x01#8, 0x0A#8, 0x00#8, 0x00#8, 0x02#8]

theorem test_decode_slipEnc : decode ([0x00#8] ++ one32 ++ [0x41#8] ++ one32 ++ [0x00#8]) =
    .ok (.slipEnc [0x41#8] (room 1), []) := by decide
theorem test_decode_slipDec : decode ([0x01#8] ++ one32 ++ [0xC0#8] ++ one32 ++ [0x01#8]) =
    .ok (.slipDec [0xC0#8] (shared 1), []) := by decide
theorem test_decode_csum : decode ([0x02#8] ++ one32 ++ [0x41#8]) =
    .ok (.csum [0x41#8], []) := by decide
theorem test_decode_ipBuild :
    decode ([0x03#8] ++ addrs ++ [0x11#8] ++ one32 ++ [0x41#8] ++ one32 ++ [0x00#8]) =
      .ok (.ipBuild hostA hostB 17#8 [0x41#8] (room 1), []) := by decide
theorem test_decode_ipParse : decode ([0x04#8] ++ one32 ++ [0x45#8]) =
    .ok (.ipParse [0x45#8], []) := by decide
theorem test_decode_icmpBuild :
    decode ([0x05#8, 0x08#8, 0x05#8, 0x3E#8, 0x00#8, 0x01#8] ++ one32 ++ [0x61#8] ++ one32 ++
      [0x00#8]) = .ok (.icmpBuild 8#8 1342#16 1#16 [0x61#8] (room 1), []) := by decide
theorem test_decode_icmpParse : decode ([0x06#8] ++ one32 ++ [0x08#8]) =
    .ok (.icmpParse [0x08#8], []) := by decide
theorem test_decode_udpBuild :
    decode ([0x07#8] ++ addrs ++ [0x04#8, 0xD2#8, 0x16#8, 0x2E#8] ++ one32 ++ [0x68#8] ++ one32 ++
      [0x00#8]) = .ok (.udpBuild hostA hostB 1234#16 5678#16 [0x68#8] (room 1), []) := by decide
theorem test_decode_udpParse : decode ([0x08#8] ++ one32 ++ [0x04#8]) =
    .ok (.udpParse [0x04#8], []) := by decide
theorem test_decode_udpCsum : decode ([0x09#8] ++ addrs ++ one32 ++ [0x04#8]) =
    .ok (.udpCsum hostA hostB [0x04#8], []) := by decide
theorem test_decode_tcpBuild :
    decode ([0x0A#8, 0x9C#8, 0x40#8, 0x00#8, 0x50#8, 0x12#8, 0x34#8, 0x56#8, 0x78#8] ++
      [0x00#8, 0x00#8, 0x10#8, 0x01#8, 0x01#8, 0x02#8, 0xFF#8, 0xFE#8] ++ one32 ++ [0x41#8] ++
      addrs ++ one32 ++ [0x00#8]) =
      .ok (.tcpBuild 40000#16 80#16 0x12345678#32 0x1001#32 0x102#9 0xFFFE#16 [0x41#8] hostA hostB
        (room 1), []) := by decide
theorem test_decode_tcpParse : decode ([0x0B#8] ++ one32 ++ [0x9C#8]) =
    .ok (.tcpParse [0x9C#8], []) := by decide
theorem test_decode_tcpFlags : decode [0x0C#8, 0x50#8, 0x12#8, 0x99#8] =
    .ok (.tcpFlags 0x5012#16, [0x99#8]) := by decide
theorem test_decode_tcpSegIn :
    decode ([0x0D#8] ++ addrs ++ [0x9C#8, 0x40#8, 0x00#8, 0x50#8, 0x12#8, 0x34#8, 0x56#8, 0x78#8] ++
      [0x00#8, 0x00#8, 0x10#8, 0x01#8, 0x50#8, 0x18#8, 0xFF#8, 0xFE#8] ++
      [0x42#8, 0xB4#8, 0x00#8, 0x07#8] ++ one32 ++ one32 ++ [0x6F#8]) =
      .ok (.tcpSegIn hostA hostB
        { srcPort := 40000#16, dstPort := 80#16, seq := 0x12345678#32, ack := 0x1001#32,
          offFlags := 0x5018#16, window := 0xFFFE#16, checksum := 0x42B4#16, urgent := 7#16 }
        1 [0x6F#8], []) := by decide
theorem test_decode_tcpClose : decode ([0x0E#8] ++ one32) = .ok (.tcpClose 1, []) := by decide
theorem test_decode_rxPoll : decode [0x0F#8, 0x00#8] = .ok (.rxPoll .dispatch, []) ∧
    decode [0x0F#8, 0x01#8] = .ok (.rxPoll .identity, []) ∧
    decode [0x0F#8, 0x02#8] = .ok (.rxPoll (.host 2#8), []) := by decide
theorem test_decode_txFrame : decode ([0x10#8] ++ one32 ++ [0xC0#8]) =
    .ok (.txFrame [0xC0#8], []) := by decide
theorem test_decode_reserved11 : decode [0x11#8] = .ok (.reserved11, []) := by decide
theorem test_decode_reserved12 : decode [0x12#8] = .ok (.reserved12, []) := by decide
theorem test_decode_reserved13 : decode [0x13#8] = .ok (.reserved13, []) := by decide
theorem test_decode_reserved14 : decode [0x14#8] = .ok (.reserved14, []) := by decide
theorem test_decode_reserved15 : decode [0x15#8] = .ok (.reserved15, []) := by decide
theorem test_decode_reserved16 : decode [0x16#8] = .ok (.reserved16, []) := by decide
theorem test_decode_reserved17 : decode [0x17#8] = .ok (.reserved17, []) := by decide
theorem test_decode_reserved18 : decode [0x18#8] = .ok (.reserved18, []) := by decide
theorem test_decode_reserved19 : decode [0x19#8] = .ok (.reserved19, []) := by decide
theorem test_decode_reserved1A : decode [0x1A#8] = .ok (.reserved1A, []) := by decide
theorem test_decode_reserved1B : decode [0x1B#8] = .ok (.reserved1B, []) := by decide
theorem test_decode_reserved1C : decode [0x1C#8] = .ok (.reserved1C, []) := by decide
theorem test_decode_reserved1D : decode [0x1D#8] = .ok (.reserved1D, []) := by decide
theorem test_decode_reserved1E : decode [0x1E#8] = .ok (.reserved1E, []) := by decide
theorem test_decode_reserved1F : decode [0x1F#8] = .ok (.reserved1F, []) := by decide
theorem test_decode_echoReply :
    decode ([0x20#8] ++ addrs ++ [0x05#8, 0x3E#8, 0x00#8, 0x01#8] ++ one32 ++ [0x61#8]) =
      .ok (.echoReply hostA hostB 1342#16 1#16 [0x61#8], []) := by decide
theorem test_decode_sendSeg :
    decode ([0x21#8, 0x9C#8, 0x40#8, 0x00#8, 0x50#8, 0x12#8, 0x34#8, 0x56#8, 0x78#8] ++
      [0x00#8, 0x00#8, 0x10#8, 0x01#8, 0x00#8, 0x12#8, 0x04#8, 0x00#8] ++ one32 ++ [0x41#8] ++
      addrs) =
      .ok (.sendSeg
        { srcPort := 40000#16, dstPort := 80#16, seq := 0x12345678#32, ack := 0x1001#32,
          flags := 0x012#9, window := 0x0400#16, payload := [0x41#8], srcIp := hostA,
          dstIp := hostB }, []) := by decide
theorem test_decode_dispatch : decode ([0x22#8] ++ one32 ++ [0x45#8]) =
    .ok (.dispatch [0x45#8], []) := by decide
theorem test_decode_slipEnd : decode [0xC0#8] = .ok (.slipEnd, []) := by decide
theorem test_decode_slipEsc : decode [0xDB#8] = .ok (.slipEsc, []) := by decide
theorem test_decode_slipEscEnd : decode [0xDC#8] = .ok (.slipEscEnd, []) := by decide
theorem test_decode_slipEscEsc : decode [0xDD#8] = .ok (.slipEscEsc, []) := by decide
theorem test_decode_slipInvalid : decode [0xDE#8, 0x41#8] = .ok (.slipInvalid 0x41#8, []) := by
  decide
theorem test_decode_ipProtoIcmp : decode ([0x30#8] ++ addrs ++ one32 ++ [0x08#8]) =
    .ok (.ipProtoIcmp hostA hostB [0x08#8], []) := by decide
theorem test_decode_ipProtoTcp : decode ([0x31#8] ++ addrs ++ one32 ++ [0x08#8]) =
    .ok (.ipProtoTcp hostA hostB [0x08#8], []) := by decide
theorem test_decode_ipProtoUdp : decode ([0x32#8] ++ addrs ++ one32 ++ [0x08#8]) =
    .ok (.ipProtoUdp hostA hostB [0x08#8], []) := by decide
theorem test_decode_icmpEchoRequest :
    decode ([0x38#8] ++ addrs ++ [0x05#8, 0x3E#8, 0x00#8, 0x01#8] ++ one32 ++ [0x61#8]) =
      .ok (.icmpEchoRequest hostA hostB 1342#16 1#16 [0x61#8], []) := by decide
theorem test_decode_icmpEchoReply :
    decode ([0x39#8, 0x0A#8, 0x00#8, 0x00#8, 0x01#8, 0x05#8, 0x3E#8, 0x00#8, 0x01#8] ++ one32 ++
      [0x61#8]) = .ok (.icmpEchoReply hostA 1342#16 1#16 [0x61#8], []) := by decide
theorem test_decode_tcpFin : decodeTableWord 16 0x0001 = some (.tcpFin 0x0001#16) := by decide
theorem test_decode_tcpSyn : decodeTableWord 16 0x0002 = some (.tcpSyn 0x0002#16) := by decide
theorem test_decode_tcpRst : decodeTableWord 16 0x0004 = some (.tcpRst 0x0004#16) := by decide
theorem test_decode_tcpPsh : decodeTableWord 16 0x0008 = some (.tcpPsh 0x0008#16) := by decide
theorem test_decode_tcpAck : decodeTableWord 16 0x0010 = some (.tcpAck 0x0010#16) := by decide
theorem test_decode_tcpDataOffset5 :
    decodeTableWord 16 0x5000 = some (.tcpDataOffset5 0x5000#16) := by decide
theorem test_decode_rejects : decode [] = .error .empty ∧
    decode [0x23#8] = .error (.noSuchSelect 0x23#8) ∧ decode [0x0E#8, 0x00#8] = .error .truncated ∧
    decode [0xDE#8, 0xDC#8] = .error (.validAfterEsc 0xDC#8) ∧
    decode ([0x00#8, 0x00#8, 0x00#8, 0x00#8, 0x00#8] ++ one32 ++ [0x02#8]) =
      .error (.badPlacement 0x02#8) := by decide

/-! Vectors of spec/95_test_vectors.md. -/

/-- E6. -/
theorem test_slipEnc_E6 :
    writes (exec (.slipEnc [0x01#8, 0xC0#8, 0x02#8, 0xDB#8, 0x03#8] (room 9)) .reset)
      [0xC0#8, 0x01#8, 0xDB#8, 0xDC#8, 0x02#8, 0xDB#8, 0xDD#8, 0x03#8, 0xC0#8] = true := by decide

/-- E9. -/
theorem test_slipEnc_E9 :
    ends (exec (.slipEnc [0x01#8, 0xC0#8] (room 4)) .reset) .outOverflow = true := by decide

/-- Prefix sequence of R142, length 7. -/
theorem test_slipDec_skips_and_unstuffs :
    writes (exec (.slipDec [0xC0#8, 0xC0#8, 0x41#8, 0xDB#8, 0xDC#8, 0x42#8, 0xC0#8] (room 3)) .reset)
      [0x41#8, 0xC0#8, 0x42#8] = true := by decide

/-- SD4, SD15, SD-E1. -/
theorem test_slipDec_failures :
    ends (exec (.slipDec [0x41#8, 0xDB#8, 0xC0#8] (room 8)) .reset) .badEscape = true ∧
    ends (exec (.slipDec [0x01#8, 0xDB#8, 0xDC#8, 0xC0#8] (room 1)) .reset) .outOverflow = true ∧
    ends (exec (.slipDec [0xC0#8, 0xC0#8] (room 8)) .reset) .incomplete = true := by decide

/-- K5. -/
theorem test_csum_K5 :
    yields (exec (.csum [0x00#8, 0x01#8, 0xF2#8, 0x03#8, 0xF4#8, 0xF5#8, 0xF6#8, 0xF7#8]) .reset)
      .ok (.checksum 0x220D#16) = true := by decide

/-- K9 and K7: two folding passes; an odd length. -/
theorem test_csum_K9 :
    yields (exec (.csum [0xFF#8, 0xFF#8, 0xFF#8, 0xFF#8, 0x00#8, 0x01#8]) .reset)
      .ok (.checksum 0xFFFE#16) = true ∧
    yields (exec (.csum [0x12#8, 0x34#8, 0x56#8]) .reset) .ok (.checksum 0x97CB#16) = true := by
  decide

/-- "ping from r2". -/
def ping : List Byte :=
  [0x70#8, 0x69#8, 0x6E#8, 0x67#8, 0x20#8, 0x66#8, 0x72#8, 0x6F#8, 0x6D#8, 0x20#8, 0x72#8, 0x32#8]

/-- M1. -/
def vectorM1 : List Byte := [0x08#8, 0x00#8, 0xA1#8, 0xC7#8, 0x05#8, 0x3E#8, 0x00#8, 0x01#8] ++ ping

/-- M2. -/
def vectorM2 : List Byte := [0x00#8, 0x00#8, 0xA9#8, 0xC7#8, 0x05#8, 0x3E#8, 0x00#8, 0x01#8] ++ ping

/-- The header of I1 with checksum 0x26D3 and these last address bytes. -/
def headerI1 (src dst : Byte) : List Byte :=
  [0x45#8, 0x00#8, 0x00#8, 0x28#8, 0x00#8, 0x00#8, 0x40#8, 0x00#8, 0x40#8, 0x01#8, 0x26#8, 0xD3#8,
    0x0A#8, 0x00#8, 0x00#8, src, 0x0A#8, 0x00#8, 0x00#8, dst]

/-- I1. -/
def vectorI1 : List Byte := headerI1 1#8 2#8 ++ vectorM1

/-- I1. -/
theorem test_ipBuild_I1 :
    writes (exec (.ipBuild hostA hostB 1#8 vectorM1 (room 40)) .reset) vectorI1 = true := by decide

/-- I6. -/
theorem test_ipBuild_I6 :
    ends (exec (.ipBuild hostA hostB 1#8 vectorM1 (room 39)) .reset) .outOverflow = true := by decide

/-- I7. -/
theorem test_ipParse_I7 :
    yields (exec (.ipParse vectorI1) .reset) .ok
      (.ip { version := 4#4, ihl := 5#4, tos := 0#8, totalLength := 40#16, identification := 0#16,
             flagsFrag := 0x4000#16, ttl := 64#8, protocol := 1#8, checksum := 0x26D3#16,
             src := hostA, dst := hostB } { offset := 20, length := 20 }) = true := by decide

/-- I8, I9. -/
theorem test_ipParse_failures :
    ends (exec (.ipParse (vectorI1.take 19)) .reset) .tooShort = true ∧
    ends (exec (.ipParse (0x4F#8 :: List.replicate 58 0x00#8)) .reset) .badLength = true := by decide

/-- M1 and M2. -/
theorem test_icmpBuild_M1 :
    writes (exec (.icmpBuild 8#8 1342#16 1#16 ping (room 20)) .reset) vectorM1 = true ∧
    writes (exec (.icmpBuild 0#8 1342#16 1#16 ping (room 20)) .reset) vectorM2 = true := by decide

/-- M4. -/
theorem test_icmpBuild_M4 :
    writes (exec (.icmpBuild 8#8 1#16 2#16 [0x61#8] (room 9)) .reset)
      [0x08#8, 0x00#8, 0x96#8, 0xFC#8, 0x00#8, 0x01#8, 0x00#8, 0x02#8, 0x61#8] = true := by decide

/-- M7. -/
theorem test_icmpParse_M7 :
    yields (exec (.icmpParse vectorM1) .reset) .ok
      (.icmp { type := 8#8, code := 0#8, checksum := 0xA1C7#16, identifier := 1342#16,
               sequence := 1#16 } { offset := 8, length := 12 }) = true ∧
    ends (exec (.icmpParse (vectorM1.take 7)) .reset) .tooShort = true := by decide

/-- UD1, with checksum field `c`. -/
def vectorUD1 (c1 c2 : Byte) : List Byte :=
  [0x04#8, 0xD2#8, 0x16#8, 0x2E#8, 0x00#8, 0x0A#8, c1, c2, 0x68#8, 0x69#8]

/-- UD1. -/
theorem test_udpBuild_UD1 :
    writes (exec (.udpBuild hostA hostB 1234#16 5678#16 [0x68#8, 0x69#8] (room 10)) .reset)
      (vectorUD1 0#8 0#8) = true := by decide

/-- UD2: the field is zeroed first. -/
theorem test_udpCsum_UD2 :
    yields (exec (.udpCsum hostA hostB (vectorUD1 0xAA#8 0xBB#8)) .reset) .ok
      (.checksum 0x686E#16) = true ∧
    writes (exec (.udpCsum hostA hostB (vectorUD1 0xAA#8 0xBB#8)) .reset)
      (vectorUD1 0x68#8 0x6E#8) = true := by decide

/-- UD5: a computed zero is written as zero. -/
theorem test_udpCsum_UD5 :
    yields (exec (.udpCsum hostZ hostZ
      [0xFF#8, 0xDE#8, 0x00#8, 0x00#8, 0x00#8, 0x08#8, 0x00#8, 0x00#8]) .reset) .ok
      (.checksum 0x0000#16) = true := by decide

/-- UD7. -/
theorem test_udpParse_UD7 :
    yields (exec (.udpParse (vectorUD1 0#8 0#8)) .reset) .ok
      (.udp { srcPort := 1234#16, dstPort := 5678#16, length := 10#16, checksum := 0#16 }
        { offset := 8, length := 2 }) = true := by decide

/-- UD7 with length 11 and length 7; UD6. -/
theorem test_udpParse_failures :
    ends (exec (.udpParse ((vectorUD1 0#8 0#8).set 5 0x0B#8)) .reset) .badLength = true ∧
    ends (exec (.udpParse ((vectorUD1 0#8 0#8).set 5 0x07#8)) .reset) .badLength = true ∧
    ends (exec (.udpParse ((vectorUD1 0#8 0#8).take 5)) .reset) .tooShort = true := by decide

/-- T4. -/
def vectorT4 : List Byte :=
  [0x9C#8, 0x40#8, 0x00#8, 0x50#8, 0x12#8, 0x34#8, 0x56#8, 0x79#8, 0x00#8, 0x00#8, 0x10#8, 0x01#8,
    0x50#8, 0x18#8, 0xFF#8, 0xFF#8, 0x42#8, 0xB4#8, 0x00#8, 0x00#8, 0x68#8, 0x65#8, 0x6C#8, 0x6C#8,
    0x6F#8]

/-- T4. -/
theorem test_tcpBuild_T4 :
    writes (exec (.tcpBuild 40000#16 80#16 0x12345679#32 0x1001#32 0x018#9 0xFFFF#16
      [0x68#8, 0x65#8, 0x6C#8, 0x6C#8, 0x6F#8] hostA hostB (room 25)) .reset) vectorT4 = true := by
  decide

/-- T13: all nine flag bits. -/
theorem test_tcpBuild_T13 :
    writes (exec (.tcpBuild 0#16 0#16 0#32 0#32 0x1FF#9 0#16 [] hostA hostA (room 20)) .reset)
      (List.replicate 12 0x00#8 ++
        [0x51#8, 0xFF#8, 0x00#8, 0x00#8, 0x99#8, 0xE4#8, 0x00#8, 0x00#8]) = true := by decide

/-- TP2. -/
theorem test_tcpParse_TP2 :
    yields (exec (.tcpParse vectorT4) .reset) .ok
      (.tcp { srcPort := 40000#16, dstPort := 80#16, seq := 0x12345679#32, ack := 0x1001#32,
              offFlags := 0x5018#16, window := 0xFFFF#16, checksum := 0x42B4#16, urgent := 0#16 }
        { offset := 20, length := 5 }) = true := by decide

/-- TP1, TP3. -/
theorem test_tcpParse_failures :
    ends (exec (.tcpParse (vectorT4.take 19)) .reset) .tooShort = true ∧
    ends (exec (.tcpParse ((vectorT4.take 20).set 12 0x60#8)) .reset) .badLength = true ∧
    ends (exec (.tcpParse ((vectorT4.take 24).set 12 0x60#8)) .reset) .ok = true := by decide

/-- TP5. -/
theorem test_tcpFlags_TP5 :
    yields (exec (.tcpFlags 0x5011#16) .reset) .ok
      (.flags { syn := false, ack := true, fin := true, rst := false }) = true ∧
    yields (exec (.tcpFlags 0x51E0#16) .reset) .ok
      (.flags { syn := false, ack := false, fin := false, rst := false }) = true := by decide

/-- A received header for the 4-tuple A:40000 to B:80. -/
def inbound (seq : U32) (offFlags : U16) : TcpHdr where
  srcPort := 40000#16
  dstPort := 80#16
  seq := seq
  ack := 0x1001#32
  offFlags := offFlags
  window := 0xFFFF#16
  checksum := 0#16
  urgent := 0#16

/-- A record of the same 4-tuple. -/
def rec40000 (st : ConnState) (seq ack : U32) : Record where
  state := st
  srcIp := hostA
  dstIp := hostB
  srcPort := 40000#16
  dstPort := 80#16
  seq := seq
  ack := ack

/-- The machine with one connection, in slot 0. -/
def withConn (r : Record) : State := { State.reset with tab := [some r, none, none, none] }

/-- A reply of B:80 to A:40000. -/
def replyB (seq ack : U32) (flags : BitVec 9) (payload : List Byte) : SegDesc where
  srcPort := 80#16
  dstPort := 40000#16
  seq := seq
  ack := ack
  flags := flags
  window := 0x0400#16
  payload := payload
  srcIp := hostB
  dstIp := hostA

/-- F1. -/
theorem test_tcpSegIn_F1 :
    yields (exec (.tcpSegIn hostA hostB (inbound 0x12345678#32 0x5002#16) 0 []) .reset) .ok
      (.segIn 0 1 [replyB 0x1000#32 0x12345679#32 0x012#9 []]) = true ∧
    leaves (exec (.tcpSegIn hostA hostB (inbound 0x12345678#32 0x5002#16) 0 []) .reset)
      (some (rec40000 .synReceived 0x1001#32 0x12345679#32)) = true := by decide

/-- F5: rows 4 and 5 in one operation. -/
theorem test_tcpSegIn_F5 :
    yields (exec (.tcpSegIn hostA hostB (inbound 0x1234567E#32 0x5011#16) 0 [])
      (withConn (rec40000 .established 0x1001#32 0x1234567E#32))) .ok
      (.segIn 0 4 [replyB 0x1001#32 0x1234567F#32 0x010#9 [],
        replyB 0x1001#32 0x1234567F#32 0x011#9 []]) = true ∧
    leaves (exec (.tcpSegIn hostA hostB (inbound 0x1234567E#32 0x5011#16) 0 [])
      (withConn (rec40000 .established 0x1001#32 0x1234567E#32)))
      (some (rec40000 .lastAck 0x1002#32 0x1234567F#32)) = true := by decide

/-- F19. -/
theorem test_tcpClose_F19 :
    yields (exec (.tcpClose 0) (withConn (rec40000 .closeWait 0x1001#32 0x66#32))) .ok
      (.close [replyB 0x1001#32 0x66#32 0x011#9 []]) = true ∧
    leaves (exec (.tcpClose 0) (withConn (rec40000 .closeWait 0x1001#32 0x66#32)))
      (some (rec40000 .lastAck 0x1002#32 0x66#32)) = true := by decide

/-- F21. -/
theorem test_tcpClose_F21 :
    ends (exec (.tcpClose 4) .reset) .noConn = true ∧
    ends (exec (.tcpClose 0) (withConn (rec40000 .established 1#32 2#32))) .noConn = true := by decide

/-- RX_POLL enters its loop with the key check (R271). -/
theorem test_rxPoll_enters :
    (match exec (.rxPoll .identity) .reset with
      | .next t => decide (t.rxs = .pollKey ∧ t.accLen = 0 ∧ t.handler = .identity)
      | .fault _ => false
      | .refused _ => false) = true := by decide

/-- X3: cancelled with a byte pending. -/
theorem test_rxPoll_X3 :
    (match step { State.reset with
        rxs := .pollKey, keys := [.cancel], readys := [true], rxLine := [0xC0#8] } with
      | .next t => decide (t.status = .interrupted ∧ t.rxs = .done ∧ t.rxLine = [0xC0#8])
      | .fault _ => false
      | .refused _ => false) = true := by decide

/-- X1. -/
theorem test_txFrame_X1 :
    sends (exec (.txFrame [0x01#8, 0xC0#8]) .reset) .ok
      [0xC0#8, 0x01#8, 0xDB#8, 0xDC#8, 0xC0#8] = true := by decide

/-- X1 with TX_CAP = 4. -/
theorem test_txFrame_X1_overflow :
    sends (exec (.txFrame [0x01#8, 0xC0#8])
      (State.resetWith { Config.default with txCap := 4 })) .outOverflow [] = true := by decide

/-- P4, its last line, for every reserved code. -/
theorem test_reserved :
    ∀ i ∈ [Instr.reserved11, .reserved12, .reserved13, .reserved14, .reserved15, .reserved16,
      .reserved17, .reserved18, .reserved19, .reserved1A, .reserved1B, .reserved1C, .reserved1D,
      .reserved1E, .reserved1F], ends (exec i .reset) .illegalOp = true := by decide

/-- The line bytes of P1's answer. -/
def lineP1 : List Byte := [0xC0#8] ++ headerI1 2#8 1#8 ++ vectorM2 ++ [0xC0#8]

/-- P1's ECHO_REPLY. -/
theorem test_echoReply_P1 :
    sends (exec (.echoReply hostA hostB 1342#16 1#16 ping) .reset) .ok lineP1 = true := by decide

/-- P1's DISPATCH. -/
theorem test_dispatch_P1 : sends (exec (.dispatch vectorI1) .reset) .ok lineP1 = true := by decide

/-- X10: an unknown protocol. -/
theorem test_dispatch_X10 :
    sends (exec (.dispatch (vectorI1.set 9 0x02#8)) .reset) .dropped [] = true := by decide

/-- P2, step 1: SEND_SEG of T2 in its packet. -/
theorem test_sendSeg_T2 :
    sends (exec (.sendSeg (replyB 0x1000#32 0x12345679#32 0x012#9 [])) .reset) .ok
      ([0xC0#8, 0x45#8, 0x00#8, 0x00#8, 0x28#8, 0x00#8, 0x00#8, 0x40#8, 0x00#8, 0x40#8, 0x06#8] ++
        [0x26#8, 0xCE#8, 0x0A#8, 0x00#8, 0x00#8, 0x02#8, 0x0A#8, 0x00#8, 0x00#8, 0x01#8] ++
        [0x00#8, 0x50#8, 0x9C#8, 0x40#8, 0x00#8, 0x00#8, 0x10#8, 0x00#8, 0x12#8, 0x34#8] ++
        [0x56#8, 0x79#8, 0x50#8, 0x12#8, 0x04#8, 0x00#8, 0x82#8, 0x92#8, 0x00#8, 0x00#8] ++
        [0xC0#8]) = true := by decide

/-- The branch of protocol 1 on M1, as in P1. -/
theorem test_ipProtoIcmp_P1 :
    sends (exec (.ipProtoIcmp hostA hostB vectorM1) .reset) .ok lineP1 = true := by decide

/-- X11. -/
theorem test_ipProtoUdp_X11 :
    yields (exec (.ipProtoUdp hostA hostB (vectorUD1 0x68#8 0x6E#8)) .reset) .ok
      (.verdict { status := .ok, cause := none,
                  event := some (.udpRx hostA hostB 1234#16 5678#16 [0x68#8, 0x69#8]) }) = true := by
  decide

/-- P2, step 5: the ACK after the close is dropped and the slot is free. -/
theorem test_ipProtoTcp_P2 :
    sends (exec (.ipProtoTcp hostA hostB (vectorT4.take 20))
      { withConn (rec40000 .lastAck 0x1004#32 0x1234567F#32) with apps := [[]] }) .dropped [] = true ∧
    leaves (exec (.ipProtoTcp hostA hostB (vectorT4.take 20))
      { withConn (rec40000 .lastAck 0x1004#32 0x1234567F#32) with apps := [[]] }) none = true := by
  decide

/-- P1's answer to the echo request. -/
theorem test_icmpEchoRequest_P1 :
    sends (exec (.icmpEchoRequest hostA hostB 1342#16 1#16 ping) .reset) .ok lineP1 = true := by
  decide

/-- X10: an Echo Reply is reported. -/
theorem test_icmpEchoReply_X10 :
    yields (exec (.icmpEchoReply hostA 1342#16 1#16 ping) .reset) .ok
      (.verdict { status := .ok, cause := none,
                  event := some (.echoReplyRx hostA 1342#16 1#16 ping) }) = true := by decide

/-- What an earlier SLIP_DEC may have left in the decoder's registers: an ESC not resolved, or two
bytes decoded. -/
def leftOver (e : Bool) : State := { State.reset with esc := e, pos := 2 }

/-- A leading END is skipped (R136), whatever an earlier operation left (R27). -/
theorem test_slipEnd : ends (exec .slipEnd (leftOver true)) .incomplete = true ∧
    ends (exec .slipEnd (leftOver false)) .incomplete = true := by decide

/-- A dangling ESC is INCOMPLETE (R138), also after one that an earlier operation left. -/
theorem test_slipEsc : ends (exec .slipEsc (leftOver true)) .incomplete = true := by decide

/-- A machine with this FRAME_CAP. -/
def frameRoom (n : Nat) : State := State.resetWith { Config.default with frameCap := n }

/-- `DB DC` is a data byte (R134), which does not fit a buffer of no byte (R139). -/
theorem test_slipEscEnd : ends (exec .slipEscEnd (leftOver false)) .incomplete = true ∧
    ends (exec .slipEscEnd (frameRoom 0)) .outOverflow = true := by decide

/-- `DB DD` is a data byte. -/
theorem test_slipEscEsc : ends (exec .slipEscEsc (leftOver true)) .incomplete = true ∧
    ends (exec .slipEscEsc (frameRoom 0)) .outOverflow = true := by decide

/-- `DB C0`, `DB DB` and `DB 41` are invalid escapes (R137). -/
theorem test_slipInvalid : ends (exec (.slipInvalid 0xC0#8) .reset) .badEscape = true ∧
    ends (exec (.slipInvalid 0xDB#8) (leftOver true)) .badEscape = true ∧
    ends (exec (.slipInvalid 0x41#8) (leftOver false)) .badEscape = true := by decide

/-- 0x5011 holds ACK and FIN and data offset 5 (R94). -/
theorem test_tcp_symbols :
    yields (exec (.tcpFin 0x5011#16) .reset) .ok (.present true) = true ∧
    yields (exec (.tcpSyn 0x5011#16) .reset) .ok (.present false) = true ∧
    yields (exec (.tcpRst 0x5011#16) .reset) .ok (.present false) = true ∧
    yields (exec (.tcpPsh 0x5018#16) .reset) .ok (.present true) = true ∧
    yields (exec (.tcpAck 0x5011#16) .reset) .ok (.present true) = true ∧
    yields (exec (.tcpDataOffset5 0x5011#16) .reset) .ok (.present true) = true ∧
    yields (exec (.tcpDataOffset5 0x6000#16) .reset) .ok (.present false) = true := by decide

/-- A second operation while an RX_POLL is in progress, and overlapping buffers (R62, R58). -/
theorem test_refusals :
    refuses (exec (.csum []) { State.reset with rxs := .pollRx }) .operationInProgress = true ∧
    refuses (exec (.slipEnc [] (shared 9)) .reset) .bufferOverlap = true := by decide

/-! Witnesses: for each obligation with hypotheses, a state and operands that meet them together, each
clause at a boundary of its range. -/

theorem witness_SlipEncResult : State.reset.rxs = .done ∧ (room 5).overlaps = false ∧
    ([0x01#8, 0xC0#8] : List Byte).length + 2 + specialCount [0x01#8, 0xC0#8] ≤ (room 5).cap ∧
    (room 4).overlaps = false ∧
    (room 4).cap < ([0x01#8, 0xC0#8] : List Byte).length + 2 + specialCount [0x01#8, 0xC0#8] := by
  decide

theorem witness_SlipEncLengthLaw :
    ∃ t, exec (.slipEnc [0xC0#8, 0x01#8] (room 5)) .reset = .next t ∧ t.status = .ok :=
  ⟨_, rfl, rfl⟩

theorem witness_SlipDecFrame : State.reset.rxs = .done ∧ (room 1).overlaps = false ∧
    ([0xC0#8] : List Byte) ≠ [] ∧ ([0xC0#8] : List Byte).length ≤ (room 1).cap := by decide

theorem witness_SlipDecOtherEnds : State.reset.rxs = .done ∧ (room 1).overlaps = false ∧
    ([0x41#8] : List Byte).length ≤ (room 1).cap ∧
    ((([] : List Byte) = [] ∨ ([] : List Byte) = [0xDB#8]) ∧
      (([0xDB#8] : List Byte) = [] ∨ ([0xDB#8] : List Byte) = [0xDB#8])) ∧
    ((0xC0#8 : Byte) ≠ 0xDC#8 ∧ (0xC0#8 : Byte) ≠ 0xDD#8) ∧
    ([0x41#8] : List Byte).length = (room 1).cap := by decide

theorem witness_SlipDecClassifies : State.reset.rxs = .done ∧ (room 0).overlaps = false := by decide

theorem witness_SlipRoundTrip : State.reset.rxs = .done ∧ 1 ≤ ([0xDB#8] : List Byte).length ∧
    ([0xDB#8] : List Byte).length + 2 + specialCount [0xDB#8] ≤ 4 ∧
    ([0xDB#8] : List Byte).length ≤ 1 := by decide

theorem witness_SlipDecGrowingInput :
    (∃ t, exec (.slipDec [0x41#8, 0xC0#8] (room 1)) .reset = .next t ∧ t.status ≠ .incomplete) ∧
    (∃ d, State.reset.rxs = .done ∧ (room 1).overlaps = false ∧
      slipDecode (room 1).cap [0x41#8] = (d, .more)) :=
  ⟨⟨_, rfl, by decide⟩, ⟨_, rfl, rfl, rfl⟩⟩

theorem witness_CsumResult : State.reset.rxs = .done := rfl

theorem witness_ChecksumFieldVerifies : State.reset.rxs = .done ∧
    ([0x45#8, 0x00#8] : List Byte).length % 2 = 0 ∧
    ∃ t, exec (.csum ([0x45#8, 0x00#8] ++ [0x00#8, 0x00#8] ++ [0x01#8])) .reset = .next t ∧
      t.result = .checksum 0xB9FF#16 :=
  ⟨rfl, rfl, _, rfl, by decide⟩

theorem witness_ChecksumWordOrder :
    [0x1234#16, 0x00FF#16].Perm ([0x00FF#16, 0x1234#16] : List U16) ∧
    ([0x12#8, 0x34#8] : List Byte).length % 2 = 0 ∧ ([0x12#8] : List Byte).length % 2 = 1 ∧
    ([] : List Byte).length % 2 = 0 := by decide

theorem witness_BuiltChecksumsVerify : State.reset.rxs = .done ∧
    (8 ≤ (List.replicate 8 0x00#8).length ∧ (List.replicate 8 0x00#8).length ≤ 65535) ∧
    (8 ≤ (List.replicate 65535 0x00#8).length ∧ (List.replicate 65535 0x00#8).length ≤ 65535) := by
  simp only [List.length_replicate]
  decide

theorem witness_IpBuildResult : State.reset.rxs = .done ∧ (room 65535).overlaps = false ∧
    (20 + (List.replicate 65515 0x00#8).length ≤ 65535 ∧
      20 + (List.replicate 65515 0x00#8).length ≤ (room 65535).cap) ∧
    65535 < 20 + (List.replicate 65516 0x00#8).length ∧
    (20 + ([] : List Byte).length ≤ 65535 ∧ (room 19).cap < 20 + ([] : List Byte).length) := by
  simp only [List.length_replicate]
  decide

/-- The header of I3, with this first byte and this total length. -/
def headerI3 (first len : Byte) : List Byte :=
  [first, 0x00#8, 0x00#8, len, 0x00#8, 0x00#8, 0x40#8, 0x00#8, 0x40#8, 0x11#8, 0x26#8, 0xD7#8,
    0x0A#8, 0x00#8, 0x00#8, 0x01#8, 0x0A#8, 0x00#8, 0x00#8, 0x02#8]

/-- The machine with IP_CHECK_TOTAL_LENGTH. -/
def checking : State := State.resetWith { Config.default with ipCheckTotalLength := true }

theorem witness_IpParseResult : State.reset.rxs = .done ∧ checking.rxs = .done ∧
    ((headerI3 0x45#8 20#8).take 19).length < 20 ∧
    (20 ≤ (headerI3 0x46#8 20#8).length ∧
      (headerI3 0x46#8 20#8).length < (byteAt (headerI3 0x46#8 20#8) 0 &&& 0x0F#8).toNat * 4) ∧
    (checking.cfg.ipCheckTotalLength = true ∧
      (headerI3 0x45#8 21#8).length < (getBE16 (headerI3 0x45#8 21#8) 2).toNat) ∧
    ((byteAt (headerI3 0x45#8 20#8) 0 &&& 0x0F#8).toNat * 4 ≤ (headerI3 0x45#8 20#8).length ∧
      (checking.cfg.ipCheckTotalLength = true →
        (getBE16 (headerI3 0x45#8 20#8) 2).toNat ≤ (headerI3 0x45#8 20#8).length)) := by decide

theorem witness_IpBuildThenParse : State.reset.rxs = .done ∧
    20 + (List.replicate 65515 0x00#8).length ≤ 65535 := by
  simp only [List.length_replicate]
  decide

theorem witness_IcmpBuildResult : State.reset.rxs = .done ∧ (room 20).overlaps = false ∧
    8 + ping.length ≤ (room 20).cap ∧ (room 19).cap < 8 + ping.length := by decide

theorem witness_IcmpParseResult : State.reset.rxs = .done ∧ (vectorM1.take 7).length < 8 ∧
    8 ≤ (vectorM1.take 8).length := by decide

theorem witness_UdpBuildResult : State.reset.rxs = .done ∧ (room 65535).overlaps = false ∧
    (8 + (List.replicate 65527 0x00#8).length ≤ 65535 ∧
      8 + (List.replicate 65527 0x00#8).length ≤ (room 65535).cap) ∧
    65535 < 8 + (List.replicate 65528 0x00#8).length ∧
    (8 + ([] : List Byte).length ≤ 65535 ∧ (room 7).cap < 8 + ([] : List Byte).length) := by
  simp only [List.length_replicate]
  decide

theorem witness_UdpParseResult : State.reset.rxs = .done ∧
    ((vectorUD1 0#8 0#8).take 7).length < 8 ∧ 8 ≤ ((vectorUD1 0#8 0#8).take 8).length ∧
    ((vectorUD1 0#8 0#8).set 5 0x0B#8).length <
      (getBE16 ((vectorUD1 0#8 0#8).set 5 0x0B#8) 4).toNat ∧
    (getBE16 ((vectorUD1 0#8 0#8).set 5 0x07#8) 4).toNat < 8 ∧
    ((getBE16 ((vectorUD1 0#8 0#8).set 5 0x08#8) 4).toNat ≤
        ((vectorUD1 0#8 0#8).set 5 0x08#8).length ∧
      8 ≤ (getBE16 ((vectorUD1 0#8 0#8).set 5 0x08#8) 4).toNat) := by decide

theorem witness_UdpCsumResult : State.reset.rxs = .done ∧
    (List.replicate 7 0x00#8).length < 8 ∧ 65535 < (List.replicate 65536 0x00#8).length ∧
    (8 ≤ (List.replicate 8 0x00#8).length ∧ (List.replicate 65535 0x00#8).length ≤ 65535) := by
  simp only [List.length_replicate]
  decide

theorem witness_MessageBuildThenParse : State.reset.rxs = .done ∧
    8 + (List.replicate 65527 0x00#8).length ≤ 65535 := by
  simp only [List.length_replicate]
  decide

/-- The reply of `replyB` with `n` payload bytes. -/
def replyLong (n : Nat) : SegDesc := replyB 0#32 0#32 0x010#9 (List.replicate n 0x00#8)

theorem witness_TcpBuildResult : State.reset.rxs = .done ∧ (room 65535).overlaps = false ∧
    (20 + (replyLong 65515).payload.length ≤ 65535 ∧
      20 + (replyLong 65515).payload.length ≤ (room 65535).cap) ∧
    65535 < 20 + (replyLong 65516).payload.length ∧
    (20 + (replyLong 0).payload.length ≤ 65535 ∧ (room 19).cap < 20 + (replyLong 0).payload.length) := by
  simp only [replyLong, replyB, List.length_replicate]
  decide

theorem witness_TcpParseResult : State.reset.rxs = .done ∧ (vectorT4.take 19).length < 20 ∧
    20 ≤ (vectorT4.take 20).length ∧
    ((vectorT4.take 23).set 12 0x60#8).length <
      (byteAt ((vectorT4.take 23).set 12 0x60#8) 12 >>> 4).toNat * 4 ∧
    (byteAt ((vectorT4.take 24).set 12 0x60#8) 12 >>> 4).toNat * 4 ≤
      ((vectorT4.take 24).set 12 0x60#8).length := by decide

theorem witness_TcpFlagsResult : State.reset.rxs = .done := rfl

theorem witness_TcpBuildThenParse : State.reset.rxs = .done := rfl

/-- A table that holds no record: nothing matches. -/
theorem noMatch_of_empty {tab : Table} {sip dip : IP4} {sp dp : U16}
    (h : ∀ (k : Nat) (r : Record), tab[k]? ≠ some (some r)) : tab.noMatch sip dip sp dp :=
  fun k r hm => h k r hm.1

theorem reset_empty (k : Nat) (r : Record) : (reclaimed State.reset.tab)[k]? ≠ some (some r) := by
  rcases k with _ | _ | _ | _ | k <;>
    simp [reclaimed, State.reset, State.resetWith, Config.default, List.replicate]

theorem witness_SegInOpens : State.reset.rxs = .done ∧
    Table.noMatch (reclaimed State.reset.tab) hostA hostB (inbound 0#32 0x5002#16).srcPort
      (inbound 0#32 0x5002#16).dstPort ∧
    isSynOnly (inbound 0#32 0x5002#16).offFlags ∧ (reclaimed State.reset.tab)[0]? = some none ∧
    ∀ j, j < 0 → ∃ r, (reclaimed State.reset.tab)[j]? = some (some r) :=
  ⟨rfl, noMatch_of_empty reset_empty, by unfold isSynOnly; decide, rfl,
    fun _ h => absurd h (Nat.not_lt_zero _)⟩

theorem witness_SegInRoutes :
    (withConn (rec40000 .established 0#32 0#32)).rxs = .done ∧
    (reclaimed (withConn (rec40000 .established 0#32 0#32)).tab).matchesAt 0 hostA hostB
      (inbound 0#32 0x5010#16).srcPort (inbound 0#32 0x5010#16).dstPort
      (rec40000 .established 0#32 0#32) ∧
    ∀ (j : Nat) (q : Record), j < 0 →
      ¬ (reclaimed (withConn (rec40000 .established 0#32 0#32)).tab).matchesAt j hostA hostB
        (inbound 0#32 0x5010#16).srcPort (inbound 0#32 0x5010#16).dstPort q :=
  ⟨rfl, ⟨by decide, rfl, rfl, rfl, rfl⟩, fun _ _ h => absurd h (Nat.not_lt_zero _)⟩

/-- A full table: four connections of 10.0.0.2 with itself. -/
def fullTable : State :=
  { State.reset with
    tab := List.replicate 4 (some { rec40000 .established 0#32 0#32 with srcIp := hostB }) }

theorem witness_SegInDrops_full : fullTable.rxs = .done ∧
    Table.noMatch (reclaimed fullTable.tab) hostA hostB (inbound 0#32 0x5002#16).srcPort
      (inbound 0#32 0x5002#16).dstPort ∧
    isSynOnly (inbound 0#32 0x5002#16).offFlags ∧ none ∉ reclaimed fullTable.tab := by
  refine ⟨rfl, fun k r hm => ?_, by unfold isSynOnly; decide, by decide⟩
  obtain ⟨hk, hs, -⟩ := hm
  have hr : some r ∈ reclaimed fullTable.tab := List.mem_of_getElem? hk
  have h4 : reclaimed fullTable.tab = fullTable.tab := by decide
  rw [h4, fullTable, List.mem_replicate] at hr
  have := Option.some.inj hr.2
  subst this
  exact absurd hs (by decide)

theorem witness_SegInDrops_not_syn : State.reset.rxs = .done ∧
    Table.noMatch (reclaimed State.reset.tab) hostA hostB (inbound 0#32 0x5012#16).srcPort
      (inbound 0#32 0x5012#16).dstPort ∧ ¬ isSynOnly (inbound 0#32 0x5012#16).offFlags :=
  ⟨rfl, noMatch_of_empty reset_empty, by unfold isSynOnly; decide⟩

theorem witness_FsmRows :
    ((rec40000 .listen 0#32 0#32).state = .listen ∧ isSynOnly 0x5002#16) ∧
    ((rec40000 .synReceived 0#32 0#32).state = .synReceived ∧ isAck 0x5010#16) ∧
    ((rec40000 .established 0#32 0#32).state = .established ∧ 0 < 1) ∧
    ((rec40000 .established 0#32 0#32).state = .established ∧ 0 = 0 ∧ isFin 0x5011#16 ∧
      Config.default.autoClose = true) ∧
    ({ Config.default with autoClose := false } : Config.Params).autoClose = false ∧
    ((rec40000 .lastAck 0#32 0#32).state = .lastAck ∧ isAck 0x5010#16) ∧
    (¬ isSynOnly 0x5012#16 ∧ ¬ isAck 0x5002#16 ∧ ¬ isFin 0x5010#16 ∧
      (rec40000 .closeWait 0#32 0#32).state ∈
        [ConnState.closed, .finWait1, .finWait2, .closing, .timeWait, .closeWait]) := by
  unfold isSynOnly isAck isFin
  decide

/-- A SYN from port `p` (P3). -/
def synFrom (p : U16) : Segment :=
  { sip := hostA, dip := hostB, hdr := { inbound 0#32 0x5002#16 with srcPort := p }, plen := 0,
    appData := [] }

theorem witness_TableCapacityRun : State.reset.rxs = .done ∧
    State.reset.tab = List.replicate State.reset.cfg.tableCap none ∧
    ([40000#16, 40001#16, 40002#16, 40003#16].map synFrom).length = State.reset.cfg.tableCap ∧
    (([40000#16, 40001#16, 40002#16, 40003#16].map synFrom).map Segment.key).Nodup ∧
    (∀ g ∈ [40000#16, 40001#16, 40002#16, 40003#16].map synFrom, isSynOnly g.hdr.offFlags) ∧
    isSynOnly (synFrom 40004#16).hdr.offFlags ∧
    (synFrom 40004#16).key ∉ ([40000#16, 40001#16, 40002#16, 40003#16].map synFrom).map Segment.key := by
  unfold isSynOnly
  decide

/-- One record: no two slots share a 4-tuple. -/
theorem keysUnique_withConn (r : Record) : Table.keysUnique (withConn r).tab := by
  intro i j q q' hi hj _
  rcases i with _ | _ | _ | _ | i <;> rcases j with _ | _ | _ | _ | j <;>
    simp_all [withConn]

theorem witness_LastAckNeverMatched :
    (withConn (rec40000 .lastAck 5#32 6#32)).rxs = .done ∧
    Table.keysUnique (withConn (rec40000 .lastAck 5#32 6#32)).tab ∧
    (withConn (rec40000 .lastAck 5#32 6#32)).tab[0]? = some (some (rec40000 .lastAck 5#32 6#32)) ∧
    (rec40000 .lastAck 5#32 6#32).state = .lastAck ∧
    (inbound 0#32 0x5010#16).srcPort = (rec40000 .lastAck 5#32 6#32).srcPort ∧
    (inbound 0#32 0x5010#16).dstPort = (rec40000 .lastAck 5#32 6#32).dstPort ∧
    isAck 0x5010#16 ∧ isSynOnly 0x5002#16 :=
  ⟨rfl, keysUnique_withConn _, rfl, rfl, rfl, rfl, by unfold isAck; decide,
    by unfold isSynOnly; decide⟩

theorem witness_TcpCloseResult :
    (withConn (rec40000 .closeWait 5#32 6#32)).rxs = .done ∧
    (0 < (withConn (rec40000 .closeWait 5#32 6#32)).cfg.tableCap ∧
      (withConn (rec40000 .closeWait 5#32 6#32)).tab[0]? =
        some (some (rec40000 .closeWait 5#32 6#32)) ∧
      (rec40000 .closeWait 5#32 6#32).state = .closeWait) ∧
    State.reset.rxs = .done ∧ State.reset.cfg.tableCap ≤ 4 ∧
    (∀ r, State.reset.tab[3]? = some (some r) → r.state ≠ .closeWait) :=
  ⟨rfl, ⟨by decide, rfl, rfl⟩, rfl, by decide, fun _ h => by cases h⟩

theorem witness_RxPollEnters : State.reset.rxs = .done := rfl

/-- A machine at the key check with these coming answers. -/
def polling (ks : List Key) : State := { State.reset with rxs := .pollKey, keys := ks }

theorem witness_RxKeyCheck :
    ((polling [.none]).rxs = .pollKey ∧ (polling [.none]).keys = [.none]) ∧
    ((polling [.other]).rxs = .pollKey ∧ (polling [.other]).keys = [.other]) ∧
    ((polling [.cancel]).rxs = .pollKey ∧ (polling [.cancel]).keys = [.cancel]) ∧
    ((polling []).rxs = .pollKey ∧ (polling []).keys = []) := by decide

/-- A machine at the transport check, with these bytes accumulated and on the line. -/
def receiving (h : Handler) (policy : Config.ErrPolicy) (cap : Nat) (l line : List Byte) : State :=
  { State.resetWith { Config.default with accCap := cap, rxErrPolicy := policy } with
    handler := h, rxs := .pollRx, acc := Memory.ofBytes l, accLen := l.length, readys := [true],
    rxLine := line }

theorem accHolds_receiving (h : Handler) (policy : Config.ErrPolicy) (cap : Nat)
    (l line : List Byte) : (receiving h policy cap l line).accHolds l :=
  ⟨rfl, Memory.holds_ofBytes l⟩

theorem witness_RxReadsByte_not_ready :
    ({ receiving .identity .hold 8 [] [0x41#8] with readys := [false] } : State).rxs = .pollRx ∧
    ({ receiving .identity .hold 8 [] [0x41#8] with readys := [false] } : State).accHolds [] ∧
    ({ receiving .identity .hold 8 [] [0x41#8] with readys := [false] } : State).readys = [false] :=
  ⟨rfl, ⟨rfl, Memory.holds_nil _⟩, rfl⟩

/-- X7's flush half: after the flush ACC still holds the old bytes above acc_len. -/
theorem witness_RxReadsByte_flushed :
    ({ receiving .identity .flush 8 [0xDB#8, 0x41#8] [0xC0#8] with accLen := 0 } : State).rxs =
      .pollRx ∧
    ({ receiving .identity .flush 8 [0xDB#8, 0x41#8] [0xC0#8] with accLen := 0 } : State).accHolds [] ∧
    ∃ t, step { receiving .identity .flush 8 [0xDB#8] [0x41#8] with readys := [true, true] } =
        .next t ∧ t.accLen = 0 ∧ Memory.read t.acc 1 = some 0x41#8 :=
  ⟨rfl, ⟨rfl, Memory.holds_nil _⟩, _, rfl, rfl, rfl⟩

/-- No listed answer to `ready()`, and no listed byte. -/
theorem witness_RxReadsByte_free :
    (({ receiving .identity .hold 8 [] [] with readys := [] } : State).rxs = .pollRx ∧
      ({ receiving .identity .hold 8 [] [] with readys := [] } : State).accHolds [] ∧
      ({ receiving .identity .hold 8 [] [] with readys := [] } : State).readys = []) ∧
    (receiving .identity .hold 8 [] []).readys = [true] ∧
    (receiving .identity .hold 8 [] []).rxLine = [] :=
  ⟨⟨rfl, ⟨rfl, Memory.holds_nil _⟩, rfl⟩, rfl, rfl⟩

/-- The byte is appended and the attempt is incomplete; ACC is full and the byte is discarded. -/
theorem witness_RxReadsByte_more :
    (∃ d, (receiving .identity .hold 1 [] [0x41#8]).rxs = .pollRx ∧
      (receiving .identity .hold 1 [] [0x41#8]).accHolds [] ∧
      (receiving .identity .hold 1 [] [0x41#8]).readys = [true] ∧
      (receiving .identity .hold 1 [] [0x41#8]).rxLine = [0x41#8] ∧
      slipDecode 64 (if 0 < 1 then ([] : List Byte) ++ [0x41#8] else []) = (d, .more)) ∧
    (∃ d, (receiving .identity .hold 1 [0x42#8] [0xC0#8]).accHolds [0x42#8] ∧
      slipDecode 64 (if 1 < 1 then ([0x42#8] : List Byte) ++ [0xC0#8] else [0x42#8]) = (d, .more)) :=
  ⟨⟨_, rfl, accHolds_receiving _ _ _ _ _, rfl, rfl, rfl⟩, ⟨_, accHolds_receiving _ _ _ _ _, rfl⟩⟩

theorem witness_RxReadsByte_errors :
    (∃ d, (receiving .identity .flush 8 [0xDB#8] [0x41#8]).rxs = .pollRx ∧
      (receiving .identity .flush 8 [0xDB#8] [0x41#8]).accHolds [0xDB#8] ∧
      (receiving .identity .flush 8 [0xDB#8] [0x41#8]).cfg.rxErrPolicy = .flush ∧
      slipDecode 64 (if 1 < 8 then ([0xDB#8] : List Byte) ++ [0x41#8] else [0xDB#8]) =
        (d, .badEscape)) ∧
    (receiving .identity .hold 8 [0xDB#8] [0x41#8]).cfg.rxErrPolicy = .hold :=
  ⟨⟨_, rfl, accHolds_receiving _ _ _ _ _, rfl, rfl⟩, rfl⟩

/-- A machine about to read the byte that completes the frame of `41`. -/
def arriving (h : Handler) : State := receiving h .hold 3 [0xC0#8, 0x41#8] [0xC0#8, 0x43#8]

theorem witness_RxDelivers (h : Handler) : (arriving h).rxs = .pollRx ∧
    (arriving h).accHolds [0xC0#8, 0x41#8] ∧ 2 < (arriving h).cfg.accCap ∧
    (arriving h).readys = true :: [] ∧ (arriving h).rxLine = 0xC0#8 :: [0x43#8] ∧
    ([0xC0#8, 0x41#8] : List Byte) ++ [0xC0#8] = delims 1 ++ stuffed [0x41#8] ++ [0xC0#8] ∧
    ([0x41#8] : List Byte) ≠ [] ∧ ([0x41#8] : List Byte).length ≤ (arriving h).cfg.frameCap ∧
    (arriving h).handler = h :=
  ⟨rfl, accHolds_receiving _ _ _ _ _, (by decide : 2 < 3), rfl, rfl, rfl, by decide,
    (by decide : 1 ≤ 64), rfl⟩

/-- X2's line with delays (X5), ACC_CAP just enough. -/
def lineX2 : State :=
  { State.resetWith { Config.default with accCap := 7, frameCap := 3 } with
    rxLine := delims 2 ++ stuffed [0x41#8, 0xC0#8, 0x42#8] ++ 0xC0#8 :: [0x43#8, 0xC0#8],
    readys := [true, false, true, true, true, true, false, true] ++ true :: [],
    keys := List.replicate 9 .none ++ [.cancel] }

theorem witness_RxFrameRun : lineX2.rxs = .done ∧ ([0x41#8, 0xC0#8, 0x42#8] : List Byte) ≠ [] ∧
    ([0x41#8, 0xC0#8, 0x42#8] : List Byte).length ≤ lineX2.cfg.frameCap ∧
    2 + (stuffed [0x41#8, 0xC0#8, 0x42#8]).length + 1 ≤ lineX2.cfg.accCap ∧
    lineX2.rxLine = delims 2 ++ stuffed [0x41#8, 0xC0#8, 0x42#8] ++ 0xC0#8 :: [0x43#8, 0xC0#8] ∧
    lineX2.readys = [true, false, true, true, true, true, false, true] ++ true :: [] ∧
    [true, false, true, true, true, true, false, true].count true =
      2 + (stuffed [0x41#8, 0xC0#8, 0x42#8]).length ∧
    lineX2.keys =
      List.replicate ([true, false, true, true, true, true, false, true].length + 1) .none ++
        [.cancel] := by decide

/-- X7 and X9. -/
theorem witness_RxStaysHeld :
    (receiving .identity .hold 8 [0xDB#8, 0x41#8] []).rxHeld ∧
    (receiving .identity .flush 3 [0x41#8, 0x42#8, 0x43#8] []).rxHeld :=
  ⟨⟨by decide, _, accHolds_receiving _ _ _ _ _, .inl ⟨rfl, .inl rfl⟩⟩,
    ⟨by decide, _, accHolds_receiving _ _ _ _ _, .inr ⟨by decide, rfl⟩⟩⟩

/-- The machine with this TX_CAP. -/
def txRoom (n : Nat) : State := State.resetWith { Config.default with txCap := n }

theorem witness_TxFrameResult : (txRoom 5).rxs = .done ∧
    frameFits (txRoom 5).cfg [0x01#8, 0xC0#8] ∧ (txRoom 4).rxs = .done ∧
    ¬ frameFits (txRoom 4).cfg [0x01#8, 0xC0#8] := by decide

theorem witness_EchoReplyResult : (txRoom 42).rxs = .done ∧
    echoFits (txRoom 42).cfg hostA hostB 1342#16 1#16 ping ∧ (txRoom 41).rxs = .done ∧
    ¬ echoFits (txRoom 41).cfg hostA hostB 1342#16 1#16 ping := by decide

theorem witness_SendSegResult : (txRoom 42).rxs = .done ∧
    segFits (txRoom 42).cfg (replyB 0x1000#32 0x12345679#32 0x012#9 []) ∧ (txRoom 41).rxs = .done ∧
    ¬ segFits (txRoom 41).cfg (replyB 0x1000#32 0x12345679#32 0x012#9 []) := by decide

theorem witness_DispatchRoutes : State.reset.rxs = .done ∧
    (vectorI1.take 19).length < 20 ∧ 20 ≤ vectorI1.length ∧
    (headerI3 0x46#8 20#8).length < ipHeaderLen (headerI3 0x46#8 20#8) ∧
    (checking.cfg.ipCheckTotalLength = true ∧
      (headerI3 0x45#8 21#8).length < (getBE16 (headerI3 0x45#8 21#8) 2).toNat) ∧
    (ipHeaderLen (headerI3 0x45#8 20#8) ≤ (headerI3 0x45#8 20#8).length ∧
      (checking.cfg.ipCheckTotalLength = true →
        (getBE16 (headerI3 0x45#8 20#8) 2).toNat ≤ (headerI3 0x45#8 20#8).length)) ∧
    byteAt vectorI1 9 = 1#8 ∧ byteAt (headerI3 0x45#8 20#8) 9 = 17#8 ∧
    byteAt (vectorI1.set 9 6#8) 9 = 6#8 ∧
    (byteAt (headerI3 0x45#8 30#8 ++ vectorUD1 0#8 0#8) 9 = 17#8 ∧
      8 ≤ ((headerI3 0x45#8 30#8 ++ vectorUD1 0#8 0#8).drop 20).length ∧
      (getBE16 ((headerI3 0x45#8 30#8 ++ vectorUD1 0#8 0#8).drop 20) 4).toNat ≤
        ((headerI3 0x45#8 30#8 ++ vectorUD1 0#8 0#8).drop 20).length ∧
      8 ≤ (getBE16 ((headerI3 0x45#8 30#8 ++ vectorUD1 0#8 0#8).drop 20) 4).toNat) ∧
    (byteAt (vectorI1.set 9 2#8) 9 ≠ 1#8 ∧ byteAt (vectorI1.set 9 2#8) 9 ≠ 6#8 ∧
      byteAt (vectorI1.set 9 2#8) 9 ≠ 17#8) := by decide

theorem witness_IcmpBranchResult : State.reset.rxs = .done ∧ (vectorM1.take 7).length < 8 ∧
    8 ≤ (vectorM1.take 8).length ∧ byteAt vectorM1 0 = 8#8 ∧ byteAt vectorM2 0 = 0#8 ∧
    (byteAt (vectorM1.set 0 3#8) 0 ≠ 8#8 ∧ byteAt (vectorM1.set 0 3#8) 0 ≠ 0#8) := by decide

theorem witness_EchoActions : (txRoom 42).rxs = .done ∧
    echoFits (txRoom 42).cfg hostA hostB 1342#16 1#16 ping ∧ (txRoom 41).rxs = .done ∧
    ¬ echoFits (txRoom 41).cfg hostA hostB 1342#16 1#16 ping := witness_EchoReplyResult

theorem witness_UdpBranchResult : State.reset.rxs = .done ∧
    ((vectorUD1 0#8 0#8).take 7).length < 8 ∧ 8 ≤ (vectorUD1 0#8 0#8).length ∧
    (((vectorUD1 0#8 0#8).set 5 0x0B#8).length <
        (getBE16 ((vectorUD1 0#8 0#8).set 5 0x0B#8) 4).toNat ∨
      (getBE16 ((vectorUD1 0#8 0#8).set 5 0x0B#8) 4).toNat < 8) ∧
    ((getBE16 (vectorUD1 0#8 0#8) 4).toNat ≤ (vectorUD1 0#8 0#8).length ∧
      8 ≤ (getBE16 (vectorUD1 0#8 0#8) 4).toNat) := by decide

theorem witness_TcpBranchResult :
    ({ State.reset with apps := [[0x6F#8]] } : State).rxs = .done ∧ (vectorT4.take 19).length < 20 ∧
    (20 ≤ ((vectorT4.take 20).set 12 0x60#8).length ∧
      ((vectorT4.take 20).set 12 0x60#8).length < tcpHeaderLen ((vectorT4.take 20).set 12 0x60#8)) ∧
    (20 ≤ vectorT4.length ∧ tcpHeaderLen vectorT4 ≤ vectorT4.length ∧
      ({ State.reset with apps := [[0x6F#8]] } : State).apps = [0x6F#8] :: []) ∧
    State.reset.rxs = .done ∧ State.reset.apps = [] := by decide

theorem witness_SlipSymbolSteps : (leftOver true).rxs = .done ∧
    Instr.slipEsc ∈ [Instr.slipEnd, .slipEsc] ∧ Instr.slipEscEsc ∈ [Instr.slipEscEnd, .slipEscEsc] ∧
    (frameRoom 0).rxs = .done ∧ (frameRoom 0).cfg.frameCap = 0 ∧ (leftOver true).cfg.frameCap ≠ 0 ∧
    (0xDB#8 ≠ 0xDC#8 ∧ 0xDB#8 ≠ 0xDD#8) ∧
    slipSymbolLine (.slipInvalid 0xDB#8) = some [0xDB#8, 0xDB#8] := by decide

theorem witness_TcpSymbolsPresent : State.reset.rxs = .done ∧
    (Instr.tcpAck 0x5010#16, 4) ∈ [(Instr.tcpFin 0x5010#16, 0), (Instr.tcpSyn 0x5010#16, 1),
      (Instr.tcpRst 0x5010#16, 2), (Instr.tcpPsh 0x5010#16, 3), (Instr.tcpAck 0x5010#16, 4)] := by
  decide

theorem witness_ReservedCodes : State.reset.rxs = .done ∧
    Instr.reserved1F ∈ [Instr.reserved11, .reserved12, .reserved13, .reserved14, .reserved15,
      .reserved16, .reserved17, .reserved18, .reserved19, .reserved1A, .reserved1B, .reserved1C,
      .reserved1D, .reserved1E, .reserved1F] := by decide

/-- The machine with this item on its port. -/
def issuing (item : PortItem) : State := { State.reset with port := [item] }

theorem witness_StepRunsDecoded :
    ((issuing (.command [0x11#8, 0x99#8])).rxs = .done ∧
      (issuing (.command [0x11#8, 0x99#8])).port = .command [0x11#8, 0x99#8] :: [] ∧
      decode [0x11#8, 0x99#8] = .ok (.reserved11, [0x99#8])) ∧
    ((issuing (.command [0x23#8])).rxs = .done ∧
      (issuing (.command [0x23#8])).port = .command [0x23#8] :: [] ∧
      decode [0x23#8] = .error (.noSuchSelect 0x23#8)) ∧
    decodeTableWord 8 0x11 = some .reserved11 := by decide

theorem witness_BoundarySteps : State.reset.rxs = .done ∧ State.reset.port = [] ∧
    (issuing .reset).rxs = .done ∧ (issuing .reset).port = .reset :: [] ∧
    (issuing (.handlerReturn 1 [])).port = .handlerReturn 1 [] :: [] := by decide

theorem witness_ResetTable : 3 < Config.default.tableCap := by decide

theorem witness_BusyAndOverlapRefused : (polling []).rxs ≠ .done ∧ State.reset.rxs = .done ∧
    (shared 9).overlaps = true := by decide

/-- A machine with one connection, about to close it. -/
def aboutToClose : State :=
  { withConn (rec40000 .established 0#32 0#32) with
    port := [.command (encode (.tcpClose 0))] }

theorem witness_StepKeepsInv : aboutToClose.Inv ∧ ∃ t, step aboutToClose = .next t := by
  refine ⟨⟨rfl, keysUnique_withConn _, ?_, ⟨rfl, rfl, rfl, rfl⟩, by decide, fun h => absurd rfl h⟩,
    _, rfl⟩
  intro r hr
  simp only [aboutToClose, withConn, List.mem_cons, Option.some.injEq, reduceCtorEq,
    List.not_mem_nil, or_false] at hr
  subst hr
  rfl

/-- In the midst of an RX_POLL. -/
theorem witness_StepKeepsInv_polling : (receiving .identity .hold 8 [0x41#8] [0xC0#8]).Inv ∧
    ∃ t, step (receiving .identity .hold 8 [0x41#8] [0xC0#8]) = .next t := by
  refine ⟨⟨rfl, ?_, fun r hr => by simp [receiving, State.resetWith, Config.default] at hr,
    ⟨rfl, rfl, rfl, rfl⟩, by decide, (State.accDefined_iff _).mpr fun _ =>
      ⟨_, accHolds_receiving _ _ _ _ _⟩⟩, _, rfl⟩
  intro i j q q' hi
  rcases i with _ | _ | _ | _ | i <;> simp_all [receiving, State.resetWith, Config.default]

theorem witness_StepKeepsConfig : step State.reset = .next State.reset := rfl

theorem witness_OnlyTheseWrite :
    (∃ t, exec (.csum []) .reset = .next t ∧ transmits (.csum []) = false ∧
      takesSegment (.csum []) = false ∧ closes (.csum []) = false) ∧
    (∃ t, exec (.tcpSegIn hostA hostB (inbound 0#32 0x5010#16) 0 []) .reset = .next t ∧
      (∀ h, (Instr.tcpSegIn hostA hostB (inbound 0#32 0x5010#16) 0 []) ≠ .rxPoll h) ∧
      t.status ≠ .ok) :=
  ⟨⟨_, rfl, rfl, rfl, rfl⟩, ⟨_, rfl, by simp, by decide⟩⟩

theorem witness_StatusAllowed : (∀ h, (Instr.reserved11) ≠ .rxPoll h) ∧
    ∃ t, exec .reserved11 .reset = .next t := ⟨by simp, _, rfl⟩

theorem witness_DecodeEncode : (Instr.tcpClose (2 ^ 32 - 1)).wf = true := by decide

theorem witness_DecodeCanonical :
    decode [0x0E#8, 0xFF#8, 0xFF#8, 0xFF#8, 0xFF#8, 0x77#8] =
      .ok (.tcpClose (2 ^ 32 - 1), [0x77#8]) := by decide

end Sys2Proof.Tests
end

section
/-! PROOFS. The state family (spec/10_state.md): every step keeps the configuration and the invariant.
Both are carried by one preorder on states, `State.Preserves`, which each operation of the model is
shown to respect once. -/

namespace Sys2Proof.Machine

/-! The connection table. -/

/-- The part of the invariant that speaks of the table: its size (spec/10_state.md R20), unique keys
(R24) and the states of spec/46_tcp_fsm.md R244. -/
structure Table.Sound (cfg : Config.Params) (tab : Table) : Prop where
  sized : tab.length = cfg.tableCap
  keysUnique : tab.keysUnique
  settled : ∀ (k : Nat) (r : Record), tab[k]? = some (some r) →
    r.state.settled cfg.autoClose = true

theorem State.statesSettled_iff (s : State) : s.statesSettled ↔
    ∀ (k : Nat) (r : Record), s.tab[k]? = some (some r) →
      r.state.settled s.cfg.autoClose = true := by
  simp only [State.statesSettled, List.mem_iff_getElem?]
  exact ⟨fun h k r hr => h r ⟨k, hr⟩, fun h r ⟨k, hr⟩ => h k r hr⟩

theorem State.Inv.table_sound {s : State} (h : s.Inv) : Table.Sound s.cfg s.tab :=
  ⟨h.tableSized, h.keysUnique, s.statesSettled_iff.mp h.statesSettled⟩

theorem Table.sound_replicate_none (cfg : Config.Params) :
    Table.Sound cfg (List.replicate cfg.tableCap none) := by
  have vacant (k : Nat) (r : Record) :
      (List.replicate cfg.tableCap (none : Option Record))[k]? ≠ some (some r) := by
    simp [List.getElem?_replicate]
  exact ⟨List.length_replicate, fun i _ r _ hi => absurd hi (vacant i r),
    fun k r hk => absurd hk (vacant k r)⟩

/-- Reclaim only empties slots (spec/46_tcp_fsm.md R229). -/
theorem Table.Sound.reclaim {cfg : Config.Params} {tab : Table} (h : Table.Sound cfg tab) :
    Table.Sound cfg (reclaim tab) where
  sized := (length_reclaim tab).trans h.sized
  keysUnique i j r r' hi hj :=
    h.keysUnique i j r r' (reclaim_getElem? hi).1 (reclaim_getElem? hj).1
  settled k r hk := h.settled k r (reclaim_getElem? hk).1

theorem Record.sameKey_symm {r r' : Record} (h : r.sameKey r') : r'.sameKey r :=
  let ⟨h1, h2, h3, h4⟩ := h
  ⟨h1.symm, h2.symm, h3.symm, h4.symm⟩

theorem Record.sameKey_trans {r r' r'' : Record} (h : r.sameKey r') (h' : r'.sameKey r'') :
    r.sameKey r'' :=
  let ⟨h1, h2, h3, h4⟩ := h
  let ⟨k1, k2, k3, k4⟩ := h'
  ⟨h1.trans k1, h2.trans k2, h3.trans k3, h4.trans k4⟩

/-- A slot of an updated table holds the new record or what it held before. -/
theorem Table.set_getElem?_some {tab : Table} {slot k : Nat} {q r : Record}
    (h : (tab.set slot (some q))[k]? = some (some r)) :
    (k = slot ∧ r = q) ∨ (k ≠ slot ∧ tab[k]? = some (some r)) := by
  by_cases hk : k = slot
  · have ⟨_, hq⟩ : slot < tab.length ∧ q = r := by simpa [List.getElem?_set, hk] using h
    exact .inl ⟨hk, hq.symm⟩
  · exact .inr ⟨hk, by rwa [List.getElem?_set_ne (Ne.symm hk)] at h⟩

/-- Writing a settled record keeps the table sound when no other slot has its key. -/
theorem Table.Sound.set {cfg : Config.Params} {tab : Table} {slot : Nat} {q : Record}
    (h : Table.Sound cfg tab) (hq : q.state.settled cfg.autoClose = true)
    (hkey : ∀ (k : Nat) (r : Record), tab[k]? = some (some r) → r.sameKey q → k = slot) :
    Table.Sound cfg (tab.set slot (some q)) where
  sized := List.length_set.trans h.sized
  keysUnique i j r r' hi hj hs := by
    rcases Table.set_getElem?_some hi with ⟨rfl, rfl⟩ | ⟨_, hi'⟩ <;>
      rcases Table.set_getElem?_some hj with ⟨rfl, rfl⟩ | ⟨_, hj'⟩
    · rfl
    · exact (hkey j r' hj' (Record.sameKey_symm hs)).symm
    · exact hkey i r hi' hs
    · exact h.keysUnique i j r r' hi' hj' hs
  settled k r hk := by
    rcases Table.set_getElem?_some hk with ⟨_, rfl⟩ | ⟨_, hk⟩
    · exact hq
    · exact h.settled k r hk

/-- Row 4 ends in LastAck when AUTO_CLOSE is true, and rests in CloseWait otherwise (R237, R244). -/
theorem fsmRow4_settled (cfg : Config.Params) (hdr : TcpHdr) (r : Record) :
    (fsmRow4 cfg hdr r).record.state.settled cfg.autoClose = true := by
  cases h : cfg.autoClose <;> simp [fsmRow4, fsmRow5, ConnState.settled, h]

/-- A settled record that reclaim leaves is settled after its segment (R244): row 6, the only one
that closes, is for the states reclaim removes. -/
theorem fsmStep_settled {cfg : Config.Params} {r : Record} (hdr : TcpHdr) (plen : Nat)
    (app : List Byte) (hr : r.state.settled cfg.autoClose = true)
    (hc : r.state.isClosing = false) :
    (fsmStep cfg hdr plen app r).record.state.settled cfg.autoClose = true := by
  rcases fsmStep_cases cfg hdr plen app r with
    ⟨hs, _, _⟩ | ⟨_, _, h⟩ | ⟨_, _, h⟩ | ⟨_, _, _, h⟩ | ⟨hs, _, _⟩ | h
  · simp [hs, ConnState.settled] at hr
  · rw [h]; rfl
  · rw [h]; rfl
  · rw [h]; exact fsmRow4_settled cfg hdr r
  · simp [hs, ConnState.isClosing] at hc
  · rw [h]; exact hr

/-- The record a SYN opens leaves Listen at once, by row 1 (R234). -/
theorem fsmStep_newRecord_settled (cfg : Config.Params) (sip dip : IP4) {hdr : TcpHdr} (plen : Nat)
    (app : List Byte)
    (h : ((tcpFlagsOf hdr.offFlags).syn && !(tcpFlagsOf hdr.offFlags).ack) = true) :
    (fsmStep cfg hdr plen app (newRecord cfg sip dip hdr)).record.state.settled cfg.autoClose =
      true := by
  simp [fsmStep, newRecord, h, fsmRow1, ConnState.settled]

/-- TCP_SEG_IN keeps the table sound (R228). -/
theorem Table.Sound.segInTable {cfg : Config.Params} {tab : Table} (h : Table.Sound cfg tab)
    (sip dip : IP4) (hdr : TcpHdr) (plen : Nat) (app : List Byte) :
    Table.Sound cfg (segInTable cfg sip dip hdr plen app tab).1 := by
  rcases segInTable_cases cfg sip dip hdr plen app tab with
    ⟨slot, r, hl, e⟩ | ⟨hl, ⟨slot, hsyn, _, e⟩ | ⟨_, _, e⟩ | ⟨_, e⟩⟩ <;> rw [e]
  · have hr : (Machine.reclaim tab)[slot]? = some (some r) := (lookup_some hl).2.1.1
    have hkey := fsmStep_key cfg hdr plen app r
    refine h.reclaim.set (fsmStep_settled hdr plen app (h.reclaim.settled slot r hr)
      (reclaim_getElem? hr).2) fun k q hk hq => ?_
    exact h.reclaim.keysUnique k slot q r hk hr (Record.sameKey_trans hq hkey)
  · have hkey := fsmStep_key cfg hdr plen app (newRecord cfg sip dip hdr)
    refine h.reclaim.set (fsmStep_newRecord_settled cfg sip dip plen app hsyn) fun k q hk hq => ?_
    exact absurd ⟨hk, Record.sameKey_trans hq hkey⟩ (lookup_none.mp hl k q)
  · exact h.reclaim
  · exact h.reclaim

/-- TCP_CLOSE keeps the table sound: LastAck under the key the slot had (R243). -/
theorem Table.Sound.close {s : State} {slot : Nat} {r : Record} (h : Table.Sound s.cfg s.tab)
    (ht : closeTarget s slot = some r) :
    Table.Sound s.cfg (s.tab.set slot (some (fsmRow5 s.cfg r).1)) := by
  obtain ⟨_, hr, _⟩ := closeTarget_some ht
  exact h.set rfl fun k q hk hq => h.keysUnique k slot q r hk hr hq

/-! The SLIP decoder's output buffer. -/

theorem decPut_wf {d : Dec} (cap : Nat) (v : Byte) (h : Memory.wf d.out = true) :
    Memory.wf (decPut cap v d).1.out = true := by
  unfold decPut
  split
  · exact h
  · exact Memory.wf_write _ _ h

theorem decStep_wf {d : Dec} (cap : Nat) (b : Byte) (h : Memory.wf d.out = true) :
    Memory.wf (decStep cap d b).1.out = true := by
  unfold decStep
  split
  · split
    · exact decPut_wf cap _ h
    · split
      · exact decPut_wf cap _ h
      · exact h
  · split
    · split <;> exact h
    · split
      · exact h
      · exact decPut_wf cap _ h

theorem decFeed_wf {d : Dec} (cap : Nat) (b : Byte) (h : Memory.wf d.out = true) :
    Memory.wf (decFeed cap d b).1.out = true := by
  have hstep := decStep_wf cap b h
  unfold decFeed
  split
  · rename_i heq
    rwa [heq] at hstep
  · exact hstep

theorem decScan_wf {d : Dec} (cap : Nat) (bs : List Byte) (h : Memory.wf d.out = true) :
    Memory.wf (decScan cap bs d).1.out = true := by
  induction bs generalizing d with
  | nil => exact h
  | cons b bs ih =>
    have hfeed := decFeed_wf cap b h
    unfold decScan
    split
    · rename_i heq
      rw [heq] at hfeed
      exact ih hfeed
    · exact hfeed

/-- Whatever SLIP_DEC leaves in its output buffer is in canonical form. -/
theorem slipDecode_wf {cap : Nat} {input : List Byte} {d : Dec} {ev : DecEvent}
    (h : slipDecode cap input = (d, ev)) : Memory.wf d.out = true := by
  have hscan := decScan_wf (d := decStart) cap input rfl
  rw [slipDecode] at h
  rwa [h] at hscan

/-! The preorder every operation respects. -/

/-- `t` has the configuration of `s` (spec/10_state.md R26), and the invariant if `s` has it. -/
structure State.Preserves (s t : State) : Prop where
  cfg : t.cfg = s.cfg
  inv : s.Inv → t.Inv

/-- `t` differs from `s` at most in its outputs, inputs and working registers: not in the
configuration, the table or the receive sequencer. For a record update each field holds by `rfl`. -/
structure State.SameCore (s t : State) : Prop where
  cfg : t.cfg = s.cfg := by rfl
  tab : t.tab = s.tab := by rfl
  rxs : t.rxs = s.rxs := by rfl
  acc : t.acc = s.acc := by rfl
  accLen : t.accLen = s.accLen := by rfl
  frame : t.frame = s.frame := by rfl

theorem State.Preserves.refl (s : State) : s.Preserves s := ⟨rfl, id⟩

theorem State.Preserves.trans {s t u : State} (h : s.Preserves t) (h' : t.Preserves u) :
    s.Preserves u := ⟨h'.cfg.trans h.cfg, h'.inv ∘ h.inv⟩

/-- With the same core, only the form of TXBUF and of the output buffer is left to show. -/
theorem State.SameCore.preserves {s t : State} (h : s.SameCore t)
    (htx : Memory.wf s.txBuf = true → Memory.wf t.txBuf = true)
    (hout : Memory.wf s.out = true → Memory.wf t.out = true) : s.Preserves t := by
  refine ⟨h.cfg, fun hi => ?_⟩
  obtain ⟨hsize, hkeys, hstates, ⟨hacc, hframe, htb, ho⟩, hbound, hdef⟩ := hi
  constructor
  case tableSized => rwa [State.tableSized, h.tab, h.cfg]
  case keysUnique => rwa [h.tab]
  case statesSettled => rwa [State.statesSettled, h.tab, h.cfg]
  case buffersWf => exact ⟨h.acc ▸ hacc, h.frame ▸ hframe, htx htb, hout ho⟩
  case accBounded => rwa [State.accBounded, h.accLen, h.cfg]
  case accDefined => rwa [State.accDefined, h.rxs, h.accLen, h.acc]

/-- A new table, sound if the old one was. -/
theorem State.preserves_tab {s : State} {tab : Table}
    (h : Table.Sound s.cfg s.tab → Table.Sound s.cfg tab) :
    s.Preserves { s with tab := tab } := by
  refine ⟨rfl, fun hi => ?_⟩
  have ht := h hi.table_sound
  exact
    { tableSized := ht.sized
      keysUnique := ht.keysUnique
      statesSettled := (State.statesSettled_iff _).mpr ht.settled
      buffersWf := hi.buffersWf
      accBounded := hi.accBounded
      accDefined := hi.accDefined }

/-! The shared operations over outputs, registers and inputs. -/

theorem State.preserves_complete (s : State) (n : Nat) (r : Result) :
    s.Preserves (s.complete n r) :=
  State.SameCore.preserves {} id id

theorem State.preserves_completeInto (s : State) (bs : List Byte) (r : Result) :
    s.Preserves (s.completeInto bs r) :=
  State.SameCore.preserves {} id fun _ => Memory.wf_ofBytes bs

theorem State.preserves_raise (s : State) (st : Status) : s.Preserves (s.raise st) :=
  State.SameCore.preserves {} id id

theorem State.preserves_raiseInto (s : State) (st : Status) : s.Preserves (s.raiseInto st) :=
  State.SameCore.preserves {} id fun _ => Memory.wf_nil

theorem State.preserves_sum (s : State) (n : Nat) : s.Preserves { s with sum := n } :=
  State.SameCore.preserves {} id id

theorem State.preserves_setEnc (s : State) (e : Enc) : s.Preserves (s.setEnc e) :=
  State.SameCore.preserves {} id id

theorem State.preserves_setDec (s : State) (d : Dec) : s.Preserves (s.setDec d) :=
  State.SameCore.preserves {} id id

theorem State.preserves_port (s : State) (items : List PortItem) :
    s.Preserves { s with port := items } :=
  State.SameCore.preserves {} id id

theorem State.preserves_nextApp (s : State) (sip dip : IP4) (hdr : TcpHdr) (p : List Byte) :
    s.Preserves (s.nextApp sip dip hdr p).2 := by
  rcases s.nextApp_cases sip dip hdr p with ⟨_, _, _, h⟩ | ⟨_, h⟩ <;> rw [h]
  · exact State.SameCore.preserves {} id id
  · exact .refl s

theorem State.preserves_nextByte (s : State) : s.Preserves s.nextByte.2 := by
  rcases s.nextByte_cases with ⟨_, _, _, h⟩ | ⟨_, h⟩ <;> rw [h] <;>
    exact State.SameCore.preserves {} id id

theorem State.preserves_nextReady (s : State) : s.Preserves s.nextReady.2 := by
  rcases s.nextReady_cases with ⟨_, _, _, h⟩ | ⟨_, h⟩ <;> rw [h] <;>
    exact State.SameCore.preserves {} id id

/-- A key check keeps the sequencer's state besides. -/
theorem State.preserves_nextKey (s : State) :
    s.Preserves s.nextKey.2 ∧ s.nextKey.2.rxs = s.rxs := by
  rcases s.nextKey_cases with ⟨_, _, _, h⟩ | ⟨_, h⟩ <;> rw [h] <;>
    exact ⟨State.SameCore.preserves {} id id, rfl⟩

/-- Issuing leaves the state the operation leaves. -/
theorem State.Preserves.of_issue {s t u : State} (h : s.issue u = .next t) (hu : s.Preserves u) :
    s.Preserves t := (State.issue_eq_next.mp h).2 ▸ hu

theorem State.Preserves.of_issueInto {s t u : State} {ob : OutBuf}
    (h : s.issueInto ob u = .next t) (hu : s.Preserves u) : s.Preserves t :=
  (State.issueInto_eq_next.mp h).2.2 ▸ hu

/-! The operations with an output buffer. -/

theorem State.preserves_finishBuild (s : State) (r : Except Status Built) :
    s.Preserves (s.finishBuild r) := by
  cases r with
  | ok b => exact (s.preserves_sum b.sum).trans (State.preserves_completeInto _ _ _)
  | error st => exact s.preserves_raiseInto st

theorem slipEncOp_preserves (input : List Byte) (cap : Nat) (s : State) :
    s.Preserves (slipEncOp input cap s) := by
  unfold slipEncOp
  split
  · exact (s.preserves_setEnc _).trans (State.preserves_completeInto _ _ _)
  · exact (s.preserves_setEnc _).trans (State.preserves_raiseInto _ _)

theorem slipDecOp_preserves (input : List Byte) (cap : Nat) (s : State) :
    s.Preserves (slipDecOp input cap s) := by
  unfold slipDecOp
  split
  · rename_i heq
    exact State.SameCore.preserves {} id fun _ => slipDecode_wf heq
  · exact (s.preserves_setDec _).trans (State.preserves_raiseInto _ _)

/-! The operations on the table. -/

theorem tcpSegInOp_preserves (sip dip : IP4) (hdr : TcpHdr) (plen : Nat) (app : List Byte)
    (s : State) : s.Preserves (tcpSegInOp sip dip hdr plen app s) := by
  have hsound := fun h : Table.Sound s.cfg s.tab => h.segInTable sip dip hdr plen app
  unfold tcpSegInOp
  split <;> rename_i heq <;> rw [heq] at hsound
  · exact (State.preserves_tab hsound).trans (State.preserves_complete _ _ _)
  · exact (State.preserves_tab hsound).trans
      (State.SameCore.preserves {} id id)

theorem tcpCloseOp_preserves (slot : Nat) (s : State) : s.Preserves (tcpCloseOp slot s) := by
  unfold tcpCloseOp
  split
  · rename_i heq
    exact (State.preserves_tab fun h => h.close heq).trans (State.preserves_complete _ _ _)
  · exact State.SameCore.preserves {} id id

/-! The transmit path and the dispatcher. -/

/-- TX_FRAME leaves TXBUF without a defined byte, whether the frame fits or not (R285, R286). -/
theorem transmit_preserves (bs : List Byte) (s : State) : s.Preserves (transmit bs s).1 := by
  by_cases hf : frameFits s.cfg bs
  · rw [transmit_ok hf]
    exact State.SameCore.preserves {} (fun _ => Memory.wf_nil) id
  · obtain ⟨p, c, h⟩ := transmit_error hf
    rw [h]
    exact State.SameCore.preserves {} (fun _ => Memory.wf_nil) id

theorem sendPacket_preserves (src dst : IP4) (protocol : Byte) (m : Built) (s : State) :
    s.Preserves (sendPacket src dst protocol m s).1 := by
  simp only [sendPacket]
  split
  · exact (s.preserves_sum _).trans (transmit_preserves _ _)
  · exact s.preserves_sum _

theorem echoReply_preserves (src dst : IP4) (identifier sequence : U16) (payload : List Byte)
    (s : State) : s.Preserves (echoReply src dst identifier sequence payload s).1 := by
  unfold echoReply
  split
  · exact sendPacket_preserves _ _ _ _ s
  · exact .refl s

theorem sendSeg_preserves (d : SegDesc) (s : State) : s.Preserves (sendSeg d s).1 := by
  unfold sendSeg
  split
  · exact sendPacket_preserves _ _ _ _ s
  · exact .refl s

theorem sendAll_preserves (ds : List SegDesc) (s : State) : s.Preserves (sendAll ds s) := by
  induction ds generalizing s with
  | nil => exact .refl s
  | cons d ds ih => exact (sendSeg_preserves d s).trans (ih _)

theorem finishSend_preserves {s : State} {r : State × Except Status Nat} (h : s.Preserves r.1) :
    s.Preserves (finishSend r) := by
  obtain ⟨t, n | st⟩ := r
  · exact h.trans (t.preserves_raise _)
  · exact h.trans (t.preserves_complete _ _)

theorem echoRequestAction_preserves (src dst : IP4) (identifier sequence : U16)
    (payload : List Byte) (s : State) :
    s.Preserves (echoRequestAction src dst identifier sequence payload s).2 := by
  have h := echoReply_preserves src dst identifier sequence payload s
  unfold echoRequestAction
  split <;> rename_i heq <;> rwa [heq] at h

theorem icmpBranch_preserves (src dst : IP4) (p : List Byte) (s : State) :
    s.Preserves (icmpBranch src dst p s).2 := by
  unfold icmpBranch
  split
  · exact .refl s
  · split
    · exact echoRequestAction_preserves _ _ _ _ _ s
    · split <;> exact .refl s

theorem udpBranch_preserves (src dst : IP4) (p : List Byte) (s : State) :
    s.Preserves (udpBranch src dst p s).2 := by
  unfold udpBranch
  split <;> exact .refl s

theorem tcpBranch_preserves (src dst : IP4) (p : List Byte) (s : State) :
    s.Preserves (tcpBranch src dst p s).2 := by
  unfold tcpBranch
  split
  · exact .refl s
  · rename_i hdr sl _
    have happ := s.preserves_nextApp src dst hdr (sliceBytes p sl)
    generalize s.nextApp src dst hdr (sliceBytes p sl) = answer at happ ⊢
    obtain ⟨app, u⟩ := answer
    have hsound := fun h : Table.Sound u.cfg u.tab => h.segInTable src dst hdr sl.length app
    simp only
    split <;> rename_i heq <;> rw [heq] at hsound
    · exact (happ.trans (State.preserves_tab hsound)).trans (sendAll_preserves _ _)
    · exact happ.trans (State.preserves_tab hsound)

theorem dispatchFrame_preserves (frame : List Byte) (s : State) :
    s.Preserves (dispatchFrame frame s).2 := by
  unfold dispatchFrame
  split
  · exact .refl s
  · split
    · exact icmpBranch_preserves _ _ _ s
    · split
      · exact udpBranch_preserves _ _ _ s
      · split
        · exact tcpBranch_preserves _ _ _ s
        · exact .refl s

theorem finishVerdict_preserves {s : State} {r : Verdict × State} (h : s.Preserves r.2) :
    s.Preserves (finishVerdict r) := by
  unfold finishVerdict
  split
  · exact h.trans (State.preserves_complete _ _ _)
  · exact h.trans (State.SameCore.preserves {} id id)

/-! The receive sequencer. -/

/-- RX_POLL starts with no accumulated byte, so that none is unspecified (R271). -/
theorem rxEnter_preserves (handler : Handler) (s : State) : s.Preserves (rxEnter handler s) where
  cfg := rfl
  inv := fun ⟨hsize, hkeys, hstates, ⟨_, _, htx, hout⟩, _, _⟩ =>
    ⟨hsize, hkeys, hstates, ⟨rfl, rfl, htx, hout⟩, Nat.zero_le _,
      fun _ k hk => absurd hk (Nat.not_lt_zero k)⟩

/-- With RX_POLL over, nothing is asked of ACC's bytes (R30). -/
theorem rxLeave_preserves (s : State) : s.Preserves (rxLeave s) where
  cfg := rfl
  inv := fun ⟨hsize, hkeys, hstates, ⟨_, _, htx, hout⟩, hbound, _⟩ =>
    ⟨hsize, hkeys, hstates, ⟨rfl, rfl, htx, hout⟩, hbound, fun h => absurd rfl h⟩

/-- While an RX_POLL is in progress its control state may change freely. -/
theorem State.preserves_rxs {s : State} (h : s.rxs ≠ .done) (r : RxState) :
    s.Preserves { s with rxs := r } where
  cfg := rfl
  inv := fun hi => ⟨hi.tableSized, hi.keysUnique, hi.statesSettled, hi.buffersWf, hi.accBounded,
    fun _ => hi.accDefined h⟩

/-- FRAME may be overwritten by any buffer in canonical form. -/
theorem State.preserves_frame (s : State) {m : Memory} (h : Memory.wf m = true) :
    s.Preserves { s with frame := m } where
  cfg := rfl
  inv := fun ⟨hsize, hkeys, hstates, ⟨hacc, _, htx, hout⟩, hbound, hdef⟩ =>
    ⟨hsize, hkeys, hstates, ⟨hacc, h, htx, hout⟩, hbound, hdef⟩

/-- The appended byte is a defined one, and it is discarded when ACC is full (R273, R277). -/
theorem accumulate_preserves (b : Byte) (s : State) : s.Preserves (accumulate b s) := by
  unfold accumulate
  split
  · rename_i hlt
    refine ⟨rfl, fun ⟨hsize, hkeys, hstates, ⟨hacc, hframe, htx, hout⟩, _, hdef⟩ => ?_⟩
    refine ⟨hsize, hkeys, hstates, ⟨Memory.wf_write _ _ hacc, hframe, htx, hout⟩, hlt,
      fun hr k hk => ?_⟩
    by_cases hlast : k = s.accLen
    · subst hlast
      exact ⟨b, Memory.read_write_same _ _ _⟩
    · obtain ⟨c, hc⟩ := hdef hr k (by simp only at hk; omega)
      exact ⟨c, (Memory.read_write_other _ b hlast).trans hc⟩
  · exact .refl s

theorem rxDecodeError_preserves (s : State) : s.Preserves (rxDecodeError s) := by
  unfold rxDecodeError
  split
  · exact .refl s
  · exact ⟨rfl, fun hi => ⟨hi.tableSized, hi.keysUnique, hi.statesSettled, hi.buffersWf,
      Nat.zero_le _, fun _ k hk => absurd hk (Nat.not_lt_zero k)⟩⟩

/-- Each handler's return ends the RX_POLL (R279). -/
theorem rxDeliver_preserves (n : Nat) (s : State) : s.Preserves (rxDeliver n s) := by
  unfold rxDeliver
  simp only
  split
  · exact ((dispatchFrame_preserves _ s).trans (rxLeave_preserves _)).trans
      (State.preserves_complete _ _ _)
  · exact (rxLeave_preserves s).trans (State.preserves_complete _ _ _)
  · exact (rxLeave_preserves s).trans
      (State.SameCore.preserves {} id id)

theorem rxAttempt_preserves (s : State) : s.Preserves (rxAttempt s) := by
  have hscan (d : Dec) {m : Memory} (h : Memory.wf m = true) :
      s.Preserves { s.setDec d with frame := m } :=
    (s.preserves_setDec d).trans (State.preserves_frame _ h)
  unfold rxAttempt
  split
  · rename_i heq
    exact (hscan _ (slipDecode_wf heq)).trans (rxDeliver_preserves _ _)
  · exact hscan _ Memory.wf_nil
  · exact (hscan _ Memory.wf_nil).trans (rxDecodeError_preserves _)
  · exact (hscan _ Memory.wf_nil).trans (rxDecodeError_preserves _)

theorem rxKeyCheck_preserves {s : State} (h : s.rxs ≠ .done) : s.Preserves (rxKeyCheck s) := by
  obtain ⟨hkey, hrxs⟩ := s.preserves_nextKey
  unfold rxKeyCheck
  split <;> rename_i u heq <;> rw [heq] at hkey hrxs
  · exact (hkey.trans (rxLeave_preserves u)).trans (State.preserves_raise _ _)
  · exact hkey
  · exact hkey.trans (State.preserves_rxs (by rwa [hrxs]) _)

theorem rxLineCheck_preserves {s : State} (h : s.rxs ≠ .done) : s.Preserves (rxLineCheck s) := by
  have hready := (State.preserves_rxs h .pollKey).trans (State.preserves_nextReady _)
  unfold rxLineCheck
  split <;> rename_i u heq <;> rw [heq] at hready
  · exact ((hready.trans u.preserves_nextByte).trans (accumulate_preserves _ _)).trans
      (rxAttempt_preserves _)
  · exact hready

theorem rxIterate_preserves (s : State) : s.Preserves (rxIterate s) := by
  unfold rxIterate
  split
  · rename_i hr
    exact rxKeyCheck_preserves (by simp [hr])
  · rename_i hr
    exact rxLineCheck_preserves (by simp [hr])
  · exact .refl s

/-! Every instruction, every step. -/

theorem exec_preserves {i : Instr} {s t : State} (h : exec i s = .next t) : s.Preserves t := by
  cases i with
  | slipEnc input ob => exact .of_issueInto h (slipEncOp_preserves input ob.cap s)
  | slipDec input ob => exact .of_issueInto h (slipDecOp_preserves input ob.cap s)
  | ipBuild | icmpBuild | tcpBuild => exact .of_issueInto h (s.preserves_finishBuild _)
  | udpBuild =>
    refine .of_issueInto h ?_
    split
    · exact s.preserves_completeInto _ _
    · exact s.preserves_raiseInto _
  | ipParse | icmpParse | udpParse | tcpParse =>
    refine .of_issue h ?_
    split
    · exact s.preserves_complete _ _
    · exact s.preserves_raise _
  | csum => exact .of_issue h ((s.preserves_sum _).trans (State.preserves_complete _ _ _))
  | udpCsum =>
    refine .of_issue h ?_
    split
    · exact (s.preserves_sum _).trans (State.preserves_completeInto _ _ _)
    · exact s.preserves_raiseInto _
  | tcpSegIn sip dip hdr plen app => exact .of_issue h (tcpSegInOp_preserves sip dip hdr plen app s)
  | tcpClose slot => exact .of_issue h (tcpCloseOp_preserves slot s)
  | rxPoll handler => exact .of_issue h (rxEnter_preserves handler s)
  | txFrame input => exact .of_issue h (finishSend_preserves (transmit_preserves input s))
  | echoReply => exact .of_issue h (finishSend_preserves (echoReply_preserves _ _ _ _ _ s))
  | sendSeg d => exact .of_issue h (finishSend_preserves (sendSeg_preserves d s))
  | dispatch f => exact .of_issue h (finishVerdict_preserves (dispatchFrame_preserves f s))
  | ipProtoIcmp => exact .of_issue h (finishVerdict_preserves (icmpBranch_preserves _ _ _ s))
  | ipProtoTcp => exact .of_issue h (finishVerdict_preserves (tcpBranch_preserves _ _ _ s))
  | ipProtoUdp => exact .of_issue h (finishVerdict_preserves (udpBranch_preserves _ _ _ s))
  | icmpEchoRequest =>
    exact .of_issue h (finishVerdict_preserves (echoRequestAction_preserves _ _ _ _ _ s))
  | icmpEchoReply => exact .of_issue h (finishVerdict_preserves (.refl s))
  | slipEnd | slipEsc | slipEscEnd | slipEscEsc | slipInvalid =>
    exact .of_issue h (slipDecOp_preserves _ _ s)
  | tcpFlags | tcpFin | tcpSyn | tcpRst | tcpPsh | tcpAck | tcpDataOffset5 =>
    exact .of_issue h (s.preserves_complete _ _)
  | reserved11 | reserved12 | reserved13 | reserved14 | reserved15 | reserved16 | reserved17
  | reserved18 | reserved19 | reserved1A | reserved1B | reserved1C | reserved1D | reserved1E
  | reserved1F => exact .of_issue h (s.preserves_raise _)

/-- Reset empties the table and the buffers; it comes between operations only (R341, R343). -/
theorem resetBlock_preserves {s t : State} (h : resetBlock s = .next t) : s.Preserves t := by
  rcases resetBlock_cases s with ⟨hdone, heq⟩ | ⟨_, heq⟩
  · rw [heq, Host.Outcome.next.injEq] at h
    subst h
    have htab := State.preserves_tab (s := s) fun _ => Table.sound_replicate_none s.cfg
    refine ⟨rfl, fun hi => ?_⟩
    obtain ⟨hsize, hkeys, hstates, _, hbound, _⟩ := htab.inv hi
    exact ⟨hsize, hkeys, hstates, ⟨rfl, rfl, rfl, rfl⟩, hbound, fun hr => absurd hdone hr⟩
  · simp [heq] at h

theorem stepItem_preserves {item : PortItem} {rest : List PortItem} {s t : State}
    (h : stepItem item rest s = .next t) : s.Preserves t := by
  refine (s.preserves_port rest).trans ?_
  cases item with
  | command packet =>
    simp only [stepItem] at h
    split at h
    · exact exec_preserves h
    · cases h
  | reset => exact resetBlock_preserves h
  | handlerReturn n r =>
    cases h
    exact State.preserves_complete _ _ _

/-- What O54 and O55 ask of a step, together. -/
theorem step_preserves {s t : State} (h : step s = .next t) : s.Preserves t := by
  unfold step at h
  split at h
  · split at h
    · cases h
      exact .refl s
    · exact stepItem_preserves h
  · cases h
    exact rxIterate_preserves s
  · cases h
    exact rxIterate_preserves s

/-- The state after reset is safe, whatever the configuration (spec/10_state.md R38). -/
theorem State.resetWith_inv (p : Config.Params) : (State.resetWith p).Inv where
  tableSized := (Table.sound_replicate_none p).sized
  keysUnique := (Table.sound_replicate_none p).keysUnique
  statesSettled := (State.statesSettled_iff _).mpr (Table.sound_replicate_none p).settled
  buffersWf := ⟨rfl, rfl, rfl, rfl⟩
  accBounded := Nat.zero_le _
  accDefined := fun h => absurd rfl h

/-- Settles O54: the invariant half of `step_preserves`. -/
theorem stepKeepsInv : Obligations.StepKeepsInv :=
  fun _ _ hi h => (step_preserves h).inv hi

/-- Settles O55: the configuration half of `step_preserves`. -/
theorem stepKeepsConfig : Obligations.StepKeepsConfig :=
  fun _ _ h => (step_preserves h).cfg

/-- Settles O51. -/
theorem resetTable : Obligations.ResetTable := fun p =>
  ⟨rfl, List.length_replicate, fun k hk => by simp [State.resetWith, hk]⟩

/-- Settles O52, at the default configuration. -/
theorem resetInv : Obligations.ResetInv := State.resetWith_inv Config.default

end Sys2Proof.Machine
end

section
/-! PROOFS. The memory family (spec/20_memory.md R59, spec/30_encoding.md R110): the packets of the
command port. Each reader of an operand is characterised once: it answers a value and the bytes left
over exactly when the port can carry the value and the bytes are the value's own followed by those left
over. From this come both directions, decode after encode and the decoder's canonicity. -/

namespace Sys2Proof

/-! The operand words. -/

/-- A read continues exactly when its first part succeeds. -/
theorem Read.bind_eq_ok {α β : Type} {x : Read α} {f : α → Read β} {b : β} :
    (x >>= f) = .ok b ↔ ∃ a, x = .ok a ∧ f a = .ok b := by
  cases x with
  | error e => exact ⟨fun h => (nomatch h), fun ⟨_, h, _⟩ => (nomatch h)⟩
  | ok a => simp

theorem be16_append (a b : Byte) : Machine.be16 (a ++ b) = [a, b] := by
  rw [Machine.be16, BitVec.extractLsb'_append_eq_left, BitVec.extractLsb'_append_eq_right]

theorem be32_append (a b c d : Byte) : Machine.be32 ((a ++ b) ++ (c ++ d)) = [a, b, c, d] := by
  have high (start len : Nat) (h : 16 ≤ start) :
      ((a ++ b) ++ (c ++ d)).extractLsb' start len = (a ++ b).extractLsb' (start - 16) len :=
    BitVec.extractLsb'_append_eq_of_le h
  have low (start len : Nat) (h : start + len ≤ 16) :
      ((a ++ b) ++ (c ++ d)).extractLsb' start len = (c ++ d).extractLsb' start len :=
    BitVec.extractLsb'_append_eq_of_add_le h
  rw [Machine.be32, high 24 8 (by decide), high 16 8 (by decide), low 8 8 (by decide),
    low 0 8 (by decide)]
  simp only [Nat.reduceSub, BitVec.extractLsb'_append_eq_left, BitVec.extractLsb'_append_eq_right]

theorem readU8_eq_ok {bs r : List Byte} {b : Byte} : readU8 bs = .ok (b, r) ↔ bs = b :: r := by
  cases bs <;> simp [readU8]

theorem readU16_eq_ok {bs r : List Byte} {v : U16} :
    readU16 bs = .ok (v, r) ↔ bs = Machine.be16 v ++ r := by
  refine ⟨fun h => ?_, fun h => h ▸ readU16_put v r⟩
  unfold readU16 at h
  split at h
  · cases h
    rw [be16_append]
    rfl
  · cases h

theorem readU32_eq_ok {bs r : List Byte} {v : U32} :
    readU32 bs = .ok (v, r) ↔ bs = Machine.be32 v ++ r := by
  refine ⟨fun h => ?_, fun h => h ▸ readU32_put v r⟩
  unfold readU32 at h
  split at h
  · cases h
    rw [be32_append]
    rfl
  · cases h

theorem readIP4_eq_ok {bs r : List Byte} {ip : IP4} :
    readIP4 bs = .ok (ip, r) ↔ bs = ip.bytes ++ r := by
  refine ⟨fun h => ?_, fun h => h ▸ readIP4_put ip r⟩
  unfold readIP4 at h
  split at h
  · cases h
    rfl
  · cases h

theorem readNat_eq_ok {bs r : List Byte} {n : Nat} :
    readNat bs = .ok (n, r) ↔ natFits n = true ∧ bs = putNat n ++ r := by
  refine ⟨fun h => ?_, fun ⟨hn, h⟩ => h ▸ readNat_put hn r⟩
  simp only [readNat, Read.bind_eq_ok, Prod.exists, readU32_eq_ok, Except.ok.injEq,
    Prod.mk.injEq] at h
  obtain ⟨v, _, rfl, rfl, rfl⟩ := h
  exact ⟨decide_eq_true v.isLt, by rw [putNat, BitVec.ofNat_toNat, BitVec.setWidth_eq]⟩

theorem readBytes_eq_ok {bs r l : List Byte} :
    readBytes bs = .ok (l, r) ↔ bytesFit l = true ∧ bs = putBytes l ++ r := by
  refine ⟨fun h => ?_, fun ⟨hl, h⟩ => h ▸ readBytes_put hl r⟩
  simp only [readBytes, Read.bind_eq_ok, Prod.exists, readNat_eq_ok] at h
  obtain ⟨n, q, ⟨hn, rfl⟩, h⟩ := h
  split at h
  · cases h
  · cases h
    have hlen : (q.take n).length = n := by simp; omega
    exact ⟨by rwa [bytesFit, hlen],
      by rw [putBytes, hlen, List.append_assoc, List.take_append_drop]⟩

theorem readFlags9_eq_ok {bs r : List Byte} {f : BitVec 9} :
    readFlags9 bs = .ok (f, r) ↔ bs = putFlags9 f ++ r := by
  refine ⟨fun h => ?_, fun h => h ▸ readFlags9_put f r⟩
  simp only [readFlags9, Read.bind_eq_ok, Prod.exists, readU16_eq_ok] at h
  obtain ⟨w, q, rfl, h⟩ := h
  split at h
  · rename_i hw
    cases h
    have hback : (w.setWidth 9).setWidth 16 = w := by
      apply BitVec.eq_of_toNat_eq
      simp only [BitVec.toNat_setWidth]
      omega
    rw [putFlags9, hback]
  · cases h

theorem readOutBuf_eq_ok {bs r : List Byte} {ob : OutBuf} :
    readOutBuf bs = .ok (ob, r) ↔ natFits ob.cap = true ∧ bs = putOutBuf ob ++ r := by
  refine ⟨fun h => ?_, fun ⟨hc, h⟩ => h ▸ readOutBuf_put hc r⟩
  simp only [readOutBuf, Read.bind_eq_ok, Prod.exists, readNat_eq_ok, readU8_eq_ok] at h
  obtain ⟨n, _, ⟨hn, rfl⟩, p, q, rfl, h⟩ := h
  split at h
  · rename_i hp
    cases h
    exact ⟨hn, by simp [putOutBuf, hp]⟩
  · split at h
    · rename_i hp
      cases h
      exact ⟨hn, by simp [putOutBuf, hp]⟩
    · cases h

theorem readHandler_eq_ok {bs r : List Byte} {hd : Handler} :
    readHandler bs = .ok (hd, r) ↔ hd.wf = true ∧ bs = putHandler hd ++ r := by
  refine ⟨fun h => ?_, fun ⟨hw, h⟩ => h ▸ readHandler_put hw r⟩
  simp only [readHandler, Read.bind_eq_ok, Prod.exists, readU8_eq_ok] at h
  obtain ⟨b, q, rfl, h⟩ := h
  split at h
  · rename_i hb
    cases h
    exact ⟨rfl, by rw [hb]; rfl⟩
  · split at h
    · rename_i hb
      cases h
      exact ⟨rfl, by rw [hb]; rfl⟩
    · cases h
      have hwf : 2 ≤ b.toNat := by bv_omega
      exact ⟨decide_eq_true hwf, rfl⟩

theorem readInvalid_eq_ok {bs r : List Byte} {b : Byte} :
    readInvalid bs = .ok (b, r) ↔ invalidAfterEsc b = true ∧ bs = b :: r := by
  refine ⟨fun h => ?_, fun ⟨hb, h⟩ => h ▸ readInvalid_put hb r⟩
  simp only [readInvalid, Read.bind_eq_ok, Prod.exists, readU8_eq_ok] at h
  obtain ⟨c, q, rfl, h⟩ := h
  split at h
  · cases h
    exact ⟨‹_›, rfl⟩
  · cases h

/-! The operand records. -/

theorem readTcpHdr_eq_ok {bs r : List Byte} {hdr : TcpHdr} :
    readTcpHdr bs = .ok (hdr, r) ↔ bs = putTcpHdr hdr ++ r := by
  refine ⟨fun h => ?_, fun h => h ▸ readTcpHdr_put hdr r⟩
  simp only [readTcpHdr, Read.bind_eq_ok, Prod.exists, readU16_eq_ok, readU32_eq_ok,
    Except.ok.injEq, Prod.mk.injEq] at h
  obtain ⟨_, _, rfl, _, _, rfl, _, _, rfl, _, _, rfl, _, _, rfl, _, _, rfl, _, _, rfl, _, _, rfl,
    rfl, rfl⟩ := h
  simp only [putTcpHdr, List.append_assoc]

theorem readSegDesc_eq_ok {bs r : List Byte} {d : SegDesc} :
    readSegDesc bs = .ok (d, r) ↔ bytesFit d.payload = true ∧ bs = putSegDesc d ++ r := by
  refine ⟨fun h => ?_, fun ⟨hp, h⟩ => h ▸ readSegDesc_put hp r⟩
  simp only [readSegDesc, Read.bind_eq_ok, Prod.exists, readU16_eq_ok, readU32_eq_ok,
    readFlags9_eq_ok, readBytes_eq_ok, readIP4_eq_ok, Except.ok.injEq, Prod.mk.injEq] at h
  obtain ⟨_, _, rfl, _, _, rfl, _, _, rfl, _, _, rfl, _, _, rfl, _, _, rfl, _, _, ⟨hp, rfl⟩,
    _, _, rfl, _, _, rfl, rfl, rfl⟩ := h
  exact ⟨hp, by simp only [putSegDesc, List.append_assoc]⟩

/-! The operand lists several instructions share, as the encoder writes them. -/

theorem readInOut_put (mk : List Byte → OutBuf → Instr) {input : List Byte} {ob : OutBuf}
    (h : (bytesFit input && natFits ob.cap) = true) (r : List Byte) :
    readInOut mk (putBytes input ++ putOutBuf ob ++ r) = .ok (mk input ob, r) := by
  obtain ⟨hi, ho⟩ := (Bool.and_eq_true _ _).mp h
  simp [readInOut, readBytes_put hi, readOutBuf_put ho]

theorem readIn_put (mk : List Byte → Instr) {input : List Byte} (h : bytesFit input = true)
    (r : List Byte) : readIn mk (putBytes input ++ r) = .ok (mk input, r) := by
  simp [readIn, readBytes_put h]

theorem readBranch_put (mk : IP4 → IP4 → List Byte → Instr) (src dst : IP4) {payload : List Byte}
    (h : bytesFit payload = true) (r : List Byte) :
    readBranch mk (putBranch src dst payload ++ r) = .ok (mk src dst payload, r) := by
  simp [readBranch, putBranch, readBytes_put h]

theorem readEcho_put (mk : IP4 → IP4 → U16 → U16 → List Byte → Instr) (src dst : IP4)
    (identifier sequence : U16) {payload : List Byte} (h : bytesFit payload = true)
    (r : List Byte) : readEcho mk (putEcho src dst identifier sequence payload ++ r) =
      .ok (mk src dst identifier sequence payload, r) := by
  simp [readEcho, putEcho, readBytes_put h]

theorem readWord_put (mk : U16 → Instr) (w : U16) (r : List Byte) :
    readWord mk (Machine.be16 w ++ r) = .ok (mk w, r) := by
  simp [readWord]

/-- The select byte and the operands of a well-formed instruction are read back as the instruction. -/
theorem decodeOperands_operandBytes {i : Instr} (h : i.wf = true) (r : List Byte) :
    decodeOperands i.select (i.operandBytes ++ r) = .ok (i, r) := by
  cases i with
  | slipEnc | slipDec => exact readInOut_put _ h r
  | csum | ipParse | icmpParse | udpParse | tcpParse | txFrame | dispatch =>
    exact readIn_put _ h r
  | udpCsum | ipProtoIcmp | ipProtoTcp | ipProtoUdp => exact readBranch_put _ _ _ h r
  | echoReply | icmpEchoRequest => exact readEcho_put _ _ _ _ _ h r
  | tcpFlags | tcpFin | tcpSyn | tcpRst | tcpPsh | tcpAck | tcpDataOffset5 =>
    exact readWord_put _ _ r
  | ipBuild | icmpBuild | udpBuild | tcpBuild =>
    simp only [Instr.wf, Bool.and_eq_true] at h
    obtain ⟨hp, ho⟩ := h
    simp [decodeOperands, Instr.select, Instr.operandBytes, readIpBuild, readIcmpBuild,
      readUdpBuild, readTcpBuild, readSegDesc_put, readBytes_put hp, readOutBuf_put ho, hp]
  | tcpSegIn =>
    simp only [Instr.wf, Bool.and_eq_true] at h
    obtain ⟨hn, hp⟩ := h
    simp [decodeOperands, Instr.select, Instr.operandBytes, readTcpSegIn, readNat_put hn,
      readBytes_put hp]
  | icmpEchoReply =>
    simp [decodeOperands, Instr.select, Instr.operandBytes, readBytes_put h]
  | tcpClose =>
    simp [decodeOperands, Instr.select, Instr.operandBytes, readNat_put h]
  | rxPoll => simp [decodeOperands, Instr.select, Instr.operandBytes, readHandler_put h]
  | sendSeg => simp [decodeOperands, Instr.select, Instr.operandBytes, readSegDesc_put h]
  | slipInvalid => simp [decodeOperands, Instr.select, Instr.operandBytes, readInvalid_put h]
  | reserved11 | reserved12 | reserved13 | reserved14 | reserved15 | reserved16 | reserved17
  | reserved18 | reserved19 | reserved1A | reserved1B | reserved1C | reserved1D | reserved1E
  | reserved1F | slipEnd | slipEsc | slipEscEnd | slipEscEsc => rfl

/-- Settles O58. -/
theorem decodeEncode : Obligations.DecodeEncode :=
  fun _ pad h => decodeOperands_operandBytes h pad

/-! The other direction: what a reader of operands accepts is what the encoder writes. -/

/-- The select byte `sel` and the operand bytes `bs` are those of the well-formed instruction `i`,
with `r` left over. -/
structure Instr.Carried (i : Instr) (sel : Nat) (bs r : List Byte) : Prop where
  wf : i.wf = true
  select : i.select.toNat = sel
  operands : bs = i.operandBytes ++ r

/-- `i` has the select byte `sel` and the operand bytes `operands`, and is well-formed when `fits`. For
a constructor of the model each part holds by `rfl`. -/
structure Instr.Layout (i : Instr) (sel : Nat) (fits : Bool) (operands : List Byte) : Prop where
  wf : i.wf = fits := by rfl
  select : i.select.toNat = sel := by rfl
  operandBytes : i.operandBytes = operands := by rfl

theorem Instr.Layout.carried {i : Instr} {sel : Nat} {fits : Bool} {operands : List Byte}
    (h : i.Layout sel fits operands) (hfits : fits = true) (r : List Byte) :
    i.Carried sel (operands ++ r) r :=
  ⟨h.wf.trans hfits, h.select, by rw [h.operandBytes]⟩

section
variable {bs r : List Byte} {i : Instr} {sel : Nat}

theorem readInOut_carried {mk : List Byte → OutBuf → Instr} (h : readInOut mk bs = .ok (i, r))
    (hmk : ∀ input ob, (mk input ob).Layout sel (bytesFit input && natFits ob.cap)
      (putBytes input ++ putOutBuf ob)) : i.Carried sel bs r := by
  simp only [readInOut, Read.bind_eq_ok, Prod.exists, readBytes_eq_ok, readOutBuf_eq_ok,
    Except.ok.injEq, Prod.mk.injEq] at h
  obtain ⟨input, _, ⟨hi, rfl⟩, ob, _, ⟨ho, rfl⟩, rfl, rfl⟩ := h
  rw [← List.append_assoc]
  exact (hmk input ob).carried (by rw [hi, ho]; rfl) _

theorem readIn_carried {mk : List Byte → Instr} (h : readIn mk bs = .ok (i, r))
    (hmk : ∀ input, (mk input).Layout sel (bytesFit input) (putBytes input)) :
    i.Carried sel bs r := by
  simp only [readIn, Read.bind_eq_ok, Prod.exists, readBytes_eq_ok, Except.ok.injEq,
    Prod.mk.injEq] at h
  obtain ⟨input, _, ⟨hi, rfl⟩, rfl, rfl⟩ := h
  exact (hmk input).carried hi _

theorem readBranch_carried {mk : IP4 → IP4 → List Byte → Instr}
    (h : readBranch mk bs = .ok (i, r))
    (hmk : ∀ src dst payload, (mk src dst payload).Layout sel (bytesFit payload)
      (putBranch src dst payload)) : i.Carried sel bs r := by
  simp only [readBranch, Read.bind_eq_ok, Prod.exists, readIP4_eq_ok, readBytes_eq_ok,
    Except.ok.injEq, Prod.mk.injEq] at h
  obtain ⟨src, _, rfl, dst, _, rfl, payload, _, ⟨hp, rfl⟩, rfl, rfl⟩ := h
  simpa only [putBranch, List.append_assoc] using (hmk src dst payload).carried hp _

theorem readEcho_carried {mk : IP4 → IP4 → U16 → U16 → List Byte → Instr}
    (h : readEcho mk bs = .ok (i, r))
    (hmk : ∀ src dst identifier sequence payload,
      (mk src dst identifier sequence payload).Layout sel (bytesFit payload)
        (putEcho src dst identifier sequence payload)) : i.Carried sel bs r := by
  simp only [readEcho, Read.bind_eq_ok, Prod.exists, readIP4_eq_ok, readU16_eq_ok,
    readBytes_eq_ok, Except.ok.injEq, Prod.mk.injEq] at h
  obtain ⟨src, _, rfl, dst, _, rfl, identifier, _, rfl, sequence, _, rfl, payload, _, ⟨hp, rfl⟩,
    rfl, rfl⟩ := h
  simpa only [putEcho, List.append_assoc] using
    (hmk src dst identifier sequence payload).carried hp _

theorem readWord_carried {mk : U16 → Instr} (h : readWord mk bs = .ok (i, r))
    (hmk : ∀ w, (mk w).Layout sel true (Machine.be16 w)) : i.Carried sel bs r := by
  simp only [readWord, Read.bind_eq_ok, Prod.exists, readU16_eq_ok, Except.ok.injEq,
    Prod.mk.injEq] at h
  obtain ⟨w, _, rfl, rfl, rfl⟩ := h
  exact (hmk w).carried rfl _

theorem readIpBuild_carried (h : readIpBuild bs = .ok (i, r)) : i.Carried 0x03 bs r := by
  simp only [readIpBuild, Read.bind_eq_ok, Prod.exists, readIP4_eq_ok, readU8_eq_ok,
    readBytes_eq_ok, readOutBuf_eq_ok, Except.ok.injEq, Prod.mk.injEq] at h
  obtain ⟨_, _, rfl, _, _, rfl, _, _, rfl, _, _, ⟨hp, rfl⟩, _, _, ⟨ho, rfl⟩, rfl, rfl⟩ := h
  exact ⟨by simp only [Instr.wf, hp, ho, Bool.and_self], rfl, by simp [Instr.operandBytes]⟩

theorem readIcmpBuild_carried (h : readIcmpBuild bs = .ok (i, r)) : i.Carried 0x05 bs r := by
  simp only [readIcmpBuild, Read.bind_eq_ok, Prod.exists, readU8_eq_ok, readU16_eq_ok,
    readBytes_eq_ok, readOutBuf_eq_ok, Except.ok.injEq, Prod.mk.injEq] at h
  obtain ⟨_, _, rfl, _, _, rfl, _, _, rfl, _, _, ⟨hp, rfl⟩, _, _, ⟨ho, rfl⟩, rfl, rfl⟩ := h
  exact ⟨by simp only [Instr.wf, hp, ho, Bool.and_self], rfl, by simp [Instr.operandBytes]⟩

theorem readUdpBuild_carried (h : readUdpBuild bs = .ok (i, r)) : i.Carried 0x07 bs r := by
  simp only [readUdpBuild, Read.bind_eq_ok, Prod.exists, readIP4_eq_ok, readU16_eq_ok,
    readBytes_eq_ok, readOutBuf_eq_ok, Except.ok.injEq, Prod.mk.injEq] at h
  obtain ⟨_, _, rfl, _, _, rfl, _, _, rfl, _, _, rfl, _, _, ⟨hp, rfl⟩, _, _, ⟨ho, rfl⟩, rfl,
    rfl⟩ := h
  exact ⟨by simp only [Instr.wf, hp, ho, Bool.and_self], rfl, by simp [Instr.operandBytes]⟩

theorem readTcpBuild_carried (h : readTcpBuild bs = .ok (i, r)) : i.Carried 0x0A bs r := by
  simp only [readTcpBuild, Read.bind_eq_ok, Prod.exists, readSegDesc_eq_ok, readOutBuf_eq_ok,
    Except.ok.injEq, Prod.mk.injEq] at h
  obtain ⟨_, _, ⟨hp, rfl⟩, _, _, ⟨ho, rfl⟩, rfl, rfl⟩ := h
  exact ⟨by simp only [Instr.wf, hp, ho, Bool.and_self], rfl, by simp [Instr.operandBytes]⟩

theorem readTcpSegIn_carried (h : readTcpSegIn bs = .ok (i, r)) : i.Carried 0x0D bs r := by
  simp only [readTcpSegIn, Read.bind_eq_ok, Prod.exists, readIP4_eq_ok, readTcpHdr_eq_ok,
    readNat_eq_ok, readBytes_eq_ok, Except.ok.injEq, Prod.mk.injEq] at h
  obtain ⟨_, _, rfl, _, _, rfl, _, _, rfl, _, _, ⟨hn, rfl⟩, _, _, ⟨hp, rfl⟩, rfl, rfl⟩ := h
  exact ⟨by simp only [Instr.wf, hn, hp, Bool.and_self], rfl, by simp [Instr.operandBytes]⟩

end

/-- The operands the decoder accepts after a select byte are those of the instruction it answers, and
the select byte is that instruction's. -/
theorem decodeOperands_carried {sel : Byte} {bs r : List Byte} {i : Instr}
    (h : decodeOperands sel bs = .ok (i, r)) : i.Carried sel.toNat bs r := by
  unfold decodeOperands at h
  generalize sel.toNat = n at h ⊢
  split at h
  case h_1 | h_2 => exact readInOut_carried h fun _ _ => {}
  case h_3 | h_5 | h_7 | h_9 | h_12 | h_17 | h_35 =>
    exact readIn_carried h fun _ => {}
  case h_10 | h_36 | h_37 | h_38 => exact readBranch_carried h fun _ _ _ => {}
  case h_33 | h_39 => exact readEcho_carried h fun _ _ _ _ _ => {}
  case h_13 | h_41 | h_42 | h_43 | h_44 | h_45 | h_46 =>
    exact readWord_carried h fun _ => {}
  case h_4 => exact readIpBuild_carried h
  case h_6 => exact readIcmpBuild_carried h
  case h_8 => exact readUdpBuild_carried h
  case h_11 => exact readTcpBuild_carried h
  case h_14 => exact readTcpSegIn_carried h
  case h_15 | h_16 | h_34 | h_51 =>
    simp only [Read.bind_eq_ok, Prod.exists, readNat_eq_ok, readHandler_eq_ok, readSegDesc_eq_ok,
      readInvalid_eq_ok, Except.ok.injEq, Prod.mk.injEq] at h
    obtain ⟨_, _, ⟨hv, rfl⟩, rfl, rfl⟩ := h
    exact ⟨hv, rfl, rfl⟩
  case h_40 =>
    simp only [Read.bind_eq_ok, Prod.exists, readIP4_eq_ok, readU16_eq_ok, readBytes_eq_ok,
      Except.ok.injEq, Prod.mk.injEq] at h
    obtain ⟨_, _, rfl, _, _, rfl, _, _, rfl, _, _, ⟨hp, rfl⟩, rfl, rfl⟩ := h
    exact ⟨hp, rfl, by simp [Instr.operandBytes]⟩
  case h_52 => cases h
  -- the instructions without operands: the reserved codes and the SLIP symbols
  all_goals
    cases h
    exact ⟨rfl, rfl, rfl⟩

/-- Settles O59: no bit is dropped, whichever reader the select byte chooses. -/
theorem decodeCanonical : Obligations.DecodeCanonical := by
  intro packet pad i h
  cases packet with
  | nil => cases h
  | cons sel operands =>
    obtain ⟨hwf, hsel, hops⟩ := decodeOperands_carried h
    refine ⟨hwf, ?_⟩
    rw [encode, BitVec.eq_of_toNat_eq hsel, hops]
    rfl

end Sys2Proof
end

section
/-! PROOFS. The memory family: what a step runs and what it refuses (spec/20_memory.md R58, R61, R62),
and which instructions write the transport and the table (R51, spec/60_exceptions.md R303, R326). -/

namespace Sys2Proof.Machine

/-! Issue order. -/

theorem step_command {s : State} {packet : List Byte} {rest : List PortItem} (hs : s.rxs = .done)
    (hp : s.port = .command packet :: rest) : step s = stepItem (.command packet) rest s := by
  simp only [step, hs, hp]

theorem stepItem_decoded {s : State} {packet pad : List Byte} {i : Instr} (rest : List PortItem)
    (h : decode packet = .ok (i, pad)) :
    stepItem (.command packet) rest s = exec i { s with port := rest } := by
  simp only [stepItem, h]

theorem stepItem_undecodable {s : State} {packet : List Byte} {e : DecodeError}
    (rest : List PortItem) (h : decode packet = .error e) :
    stepItem (.command packet) rest s = .refused (.undecodable e) := by
  simp only [stepItem, h]

/-- A table word stands for its packet. -/
theorem decodeTableWord_eq_some {nbits w : Nat} {i : Instr} (h : decodeTableWord nbits w = some i) :
    ∃ pad, decode (tablePacket nbits w) = .ok (i, pad) := by
  unfold decodeTableWord at h
  split at h
  · rename_i j pad heq
    cases h
    exact ⟨pad, heq⟩
  · cases h

/-- Settles O49. -/
theorem stepRunsDecoded : Obligations.StepRunsDecoded := by
  refine ⟨?_, ?_, ?_⟩
  · intro s packet pad rest i hs hp hd
    rw [step_command hs hp, stepItem_decoded rest hd]
  · intro s packet rest e hs hp hd
    rw [step_command hs hp, stepItem_undecodable rest hd]
  · intro s nbits w i hw
    obtain ⟨pad, hd⟩ := decodeTableWord_eq_some hw
    rw [step_command (s.withFetchWord_rxs nbits w) (s.withFetchWord_port nbits w),
      stepItem_decoded s.port hd]
    rfl

/-- Every meaning is issued, and issuing refuses while an RX_POLL is in progress (R62). -/
theorem exec_busy (i : Instr) {s : State} (h : s.rxs ≠ .done) :
    exec i s = .refused .operationInProgress := by
  cases i with
  | slipEnc | slipDec | ipBuild | icmpBuild | udpBuild | tcpBuild =>
    exact State.issueInto_busy h _
  | _ => exact State.issue_busy h _

/-- Settles O53: the operations with an output buffer are issued by `State.issueInto`. -/
theorem busyAndOverlapRefused : Obligations.BusyAndOverlapRefused := by
  refine ⟨fun i s h => exec_busy i h, fun s ob hs ho => ?_⟩
  have overlap := State.issueInto_overlap hs ho
  exact ⟨fun _ => overlap _, fun _ => overlap _, fun _ _ _ _ => overlap _,
    fun _ _ _ _ => overlap _, fun _ _ _ _ _ => overlap _, fun _ _ _ _ _ _ _ _ _ => overlap _⟩

/-! Who writes the transport and the table. -/

/-- `t` has the outbound stream and the table of `s`. For a record update both hold by `rfl`. -/
structure State.Silent (s t : State) : Prop where
  txLine : t.txLine = s.txLine := by rfl
  tab : t.tab = s.tab := by rfl

/-- `t` has the table of `s`, and its outbound stream with some bytes appended. -/
structure State.Appends (s t : State) : Prop where
  txLine : ∃ sent, t.txLine = s.txLine ++ sent
  tab : t.tab = s.tab

/-- `t` appends to the outbound stream of `s`; if the status `st` is a failure the table is that of `s`,
at most reclaimed. -/
structure State.AtMostReclaims (s : State) (st : Status) (t : State) : Prop where
  txLine : ∃ sent, t.txLine = s.txLine ++ sent
  failed : st ≠ .ok → t.tab = s.tab ∨ t.tab = reclaimed s.tab

theorem State.Silent.appends {s t : State} (h : s.Silent t) : s.Appends t :=
  ⟨⟨[], by rw [h.txLine, List.append_nil]⟩, h.tab⟩

theorem State.Silent.trans {s t u : State} (h : s.Silent t) (h' : t.Silent u) : s.Silent u :=
  ⟨h'.txLine.trans h.txLine, h'.tab.trans h.tab⟩

theorem State.Appends.refl (s : State) : s.Appends s := State.Silent.appends {}

theorem State.Appends.trans {s t u : State} (h : s.Appends t) (h' : t.Appends u) : s.Appends u := by
  obtain ⟨⟨sent, hs⟩, htab⟩ := h
  obtain ⟨⟨sent', hs'⟩, htab'⟩ := h'
  exact ⟨⟨sent ++ sent', by rw [hs', hs, List.append_assoc]⟩, htab'.trans htab⟩

theorem State.Appends.atMostReclaims {s t : State} (h : s.Appends t) (st : Status) :
    s.AtMostReclaims st t :=
  ⟨h.txLine, fun _ => .inl h.tab⟩

/-! The silent operations. -/

theorem State.finishBuild_silent (s : State) (r : Except Status Built) :
    s.Silent (s.finishBuild r) := by
  cases r <;> exact {}

theorem slipEncOp_silent (input : List Byte) (cap : Nat) (s : State) :
    s.Silent (slipEncOp input cap s) := by
  unfold slipEncOp
  split <;> exact {}

theorem slipDecOp_silent (input : List Byte) (cap : Nat) (s : State) :
    s.Silent (slipDecOp input cap s) := by
  unfold slipDecOp
  split <;> exact {}

theorem State.nextApp_silent (s : State) (sip dip : IP4) (hdr : TcpHdr) (p : List Byte) :
    s.Silent (s.nextApp sip dip hdr p).2 := by
  rcases s.nextApp_cases sip dip hdr p with ⟨_, _, _, h⟩ | ⟨_, h⟩ <;> rw [h] <;> exact {}

/-! The operations that contain TX_FRAME (R116, R285). -/

theorem transmit_appends (bs : List Byte) (s : State) : s.Appends (transmit bs s).1 := by
  by_cases hf : frameFits s.cfg bs
  · rw [transmit_ok hf]
    exact ⟨⟨_, rfl⟩, rfl⟩
  · obtain ⟨p, c, h⟩ := transmit_error hf
    rw [h]
    exact State.Silent.appends {}

theorem sendPacket_appends (src dst : IP4) (protocol : Byte) (m : Built) (s : State) :
    s.Appends (sendPacket src dst protocol m s).1 := by
  simp only [sendPacket]
  split
  · exact State.Appends.trans (State.Silent.appends {}) (transmit_appends _ _)
  · exact State.Silent.appends {}

theorem echoReply_appends (src dst : IP4) (identifier sequence : U16) (payload : List Byte)
    (s : State) : s.Appends (echoReply src dst identifier sequence payload s).1 := by
  unfold echoReply
  split
  · exact sendPacket_appends _ _ _ _ s
  · exact .refl s

theorem sendSeg_appends (d : SegDesc) (s : State) : s.Appends (sendSeg d s).1 := by
  unfold sendSeg
  split
  · exact sendPacket_appends _ _ _ _ s
  · exact .refl s

theorem sendAll_appends (ds : List SegDesc) (s : State) : s.Appends (sendAll ds s) := by
  induction ds generalizing s with
  | nil => exact .refl s
  | cons d ds ih => exact (sendSeg_appends d s).trans (ih _)

theorem finishSend_appends {s : State} {r : State × Except Status Nat} (h : s.Appends r.1) :
    s.Appends (finishSend r) := by
  obtain ⟨t, n | st⟩ := r <;> exact h.trans (State.Silent.appends {})

theorem echoRequestAction_appends (src dst : IP4) (identifier sequence : U16)
    (payload : List Byte) (s : State) :
    s.Appends (echoRequestAction src dst identifier sequence payload s).2 := by
  have h := echoReply_appends src dst identifier sequence payload s
  unfold echoRequestAction
  split <;> rename_i heq <;> rwa [heq] at h

theorem icmpBranch_appends (src dst : IP4) (p : List Byte) (s : State) :
    s.Appends (icmpBranch src dst p s).2 := by
  unfold icmpBranch
  split
  · exact .refl s
  · split
    · exact echoRequestAction_appends _ _ _ _ _ s
    · split <;> exact .refl s

theorem udpBranch_silent (src dst : IP4) (p : List Byte) (s : State) :
    s.Silent (udpBranch src dst p s).2 := by
  unfold udpBranch
  split <;> exact {}

/-! The operations on an inbound segment (spec/46_tcp_fsm.md R228, R229). -/

/-- A segment that is not taken leaves the reclaimed table (R231, R232). -/
theorem segInTable_error {cfg : Config.Params} {sip dip : IP4} {hdr : TcpHdr} {plen : Nat}
    {app : List Byte} {tab tab' : Table} {st : Status}
    (h : segInTable cfg sip dip hdr plen app tab = (tab', .error st)) : tab' = reclaimed tab := by
  rcases segInTable_cases cfg sip dip hdr plen app tab with
    ⟨_, _, _, e⟩ | ⟨_, ⟨_, _, _, e⟩ | ⟨_, _, e⟩ | ⟨_, e⟩⟩ <;> rw [e] at h <;> cases h
  · exact reclaim_eq tab
  · exact reclaim_eq tab

theorem tcpSegInOp_txLine (sip dip : IP4) (hdr : TcpHdr) (plen : Nat) (app : List Byte)
    (s : State) : (tcpSegInOp sip dip hdr plen app s).txLine = s.txLine := by
  unfold tcpSegInOp
  split <;> rfl

theorem tcpSegInOp_tab_of_failed {sip dip : IP4} {hdr : TcpHdr} {plen : Nat} {app : List Byte}
    {s : State} (h : (tcpSegInOp sip dip hdr plen app s).status ≠ .ok) :
    (tcpSegInOp sip dip hdr plen app s).tab = reclaimed s.tab := by
  unfold tcpSegInOp at h ⊢
  split
  · rename_i heq
    simp [heq] at h
  · rename_i heq
    exact segInTable_error heq

/-- DROPPED without an event comes before anything is sent; a taken segment ends OK (R294). -/
theorem tcpBranch_atMostReclaims (src dst : IP4) (p : List Byte) (s : State) :
    s.AtMostReclaims (tcpBranch src dst p s).1.status (tcpBranch src dst p s).2 := by
  unfold tcpBranch
  split
  · exact (State.Appends.refl s).atMostReclaims _
  · rename_i hdr sl _
    have happ := s.nextApp_silent src dst hdr (sliceBytes p sl)
    generalize s.nextApp src dst hdr (sliceBytes p sl) = answer at happ ⊢
    obtain ⟨app, u⟩ := answer
    obtain ⟨hline, htab⟩ : u.txLine = s.txLine ∧ u.tab = s.tab := ⟨happ.txLine, happ.tab⟩
    simp only
    split <;> rename_i tab r heq
    · have hsent := sendAll_appends r.tx { u with tab := tab }
      exact ⟨by rw [← hline]; exact hsent.txLine, fun h => absurd rfl h⟩
    · exact ⟨happ.appends.txLine, fun _ => .inr (by rw [← htab]; exact segInTable_error heq)⟩

theorem dispatchFrame_atMostReclaims (frame : List Byte) (s : State) :
    s.AtMostReclaims (dispatchFrame frame s).1.status (dispatchFrame frame s).2 := by
  unfold dispatchFrame
  split
  · exact (State.Appends.refl s).atMostReclaims _
  · split
    · exact (icmpBranch_appends _ _ _ s).atMostReclaims _
    · split
      · exact (udpBranch_silent _ _ _ s).appends.atMostReclaims _
      · split
        · exact tcpBranch_atMostReclaims _ _ _ s
        · exact (State.Appends.refl s).atMostReclaims _

theorem finishVerdict_silent (r : Verdict × State) : r.2.Silent (finishVerdict r) := by
  unfold finishVerdict
  split <;> exact {}

@[simp] theorem finishVerdict_status (r : Verdict × State) :
    (finishVerdict r).status = r.1.status := by
  unfold finishVerdict
  split
  · exact Eq.symm ‹_›
  · rfl

theorem finishVerdict_atMostReclaims {s : State} {r : Verdict × State}
    (h : s.AtMostReclaims r.1.status r.2) :
    s.AtMostReclaims (finishVerdict r).status (finishVerdict r) := by
  have hsilent := finishVerdict_silent r
  exact ⟨by rw [hsilent.txLine]; exact h.txLine,
    by rw [finishVerdict_status, hsilent.tab]; exact h.failed⟩

/-! TCP_CLOSE (R243). -/

theorem tcpCloseOp_txLine (slot : Nat) (s : State) : (tcpCloseOp slot s).txLine = s.txLine := by
  unfold tcpCloseOp
  split <;> rfl

theorem tcpCloseOp_tab_of_failed {slot : Nat} {s : State}
    (h : (tcpCloseOp slot s).status ≠ .ok) : (tcpCloseOp slot s).tab = s.tab := by
  unfold tcpCloseOp at h ⊢
  split
  · rename_i heq
    simp [heq] at h
  · rfl

/-! Every instruction. -/

/-- What O56 says of one instruction that takes the machine from `s` to `t`. -/
structure Instr.WritesOnly (i : Instr) (s t : State) : Prop where
  appends : ∃ sent, t.txLine = s.txLine ++ sent
  txLine : transmits i = false → t.txLine = s.txLine
  tab : takesSegment i = false → closes i = false → t.tab = s.tab
  failed : (∀ h, i ≠ .rxPoll h) → t.status ≠ .ok →
    t.tab = s.tab ∨ (takesSegment i = true ∧ t.tab = reclaimed s.tab)

theorem State.Silent.writesOnly {s t : State} (h : s.Silent t) (i : Instr) :
    Instr.WritesOnly i s t :=
  ⟨h.appends.txLine, fun _ => h.txLine, fun _ _ => h.tab, fun _ _ => .inl h.tab⟩

theorem State.Appends.writesOnly {s t : State} {i : Instr} (h : s.Appends t)
    (hi : transmits i = true) : Instr.WritesOnly i s t :=
  ⟨h.txLine, fun hq => (by simp [hi] at hq), fun _ _ => h.tab, fun _ _ => .inl h.tab⟩

theorem State.AtMostReclaims.writesOnly {s t : State} {i : Instr} (h : s.AtMostReclaims t.status t)
    (hi : transmits i = true) (hseg : takesSegment i = true) : Instr.WritesOnly i s t :=
  ⟨h.txLine, fun hq => (by simp [hi] at hq), fun hq => (by simp [hseg] at hq),
    fun _ hst => (h.failed hst).imp_right fun ht => ⟨hseg, ht⟩⟩

theorem tcpSegInOp_writesOnly (sip dip : IP4) (hdr : TcpHdr) (plen : Nat) (app : List Byte)
    (s : State) :
    Instr.WritesOnly (.tcpSegIn sip dip hdr plen app) s (tcpSegInOp sip dip hdr plen app s) := by
  have hline := tcpSegInOp_txLine sip dip hdr plen app s
  exact ⟨⟨[], by rw [hline, List.append_nil]⟩, fun _ => hline, fun h => (nomatch h),
    fun _ hst => .inr ⟨rfl, tcpSegInOp_tab_of_failed hst⟩⟩

theorem tcpCloseOp_writesOnly (slot : Nat) (s : State) :
    Instr.WritesOnly (.tcpClose slot) s (tcpCloseOp slot s) := by
  have hline := tcpCloseOp_txLine slot s
  exact ⟨⟨[], by rw [hline, List.append_nil]⟩, fun _ => hline, fun _ h => (nomatch h),
    fun _ hst => .inl (tcpCloseOp_tab_of_failed hst)⟩

/-- Issuing leaves the state the operation leaves. -/
theorem Instr.WritesOnly.of_issue {i : Instr} {s t u : State} (h : s.issue u = .next t)
    (hu : Instr.WritesOnly i s u) : Instr.WritesOnly i s t := (State.issue_eq_next.mp h).2 ▸ hu

theorem Instr.WritesOnly.of_issueInto {i : Instr} {s t u : State} {ob : OutBuf}
    (h : s.issueInto ob u = .next t) (hu : Instr.WritesOnly i s u) : Instr.WritesOnly i s t :=
  (State.issueInto_eq_next.mp h).2.2 ▸ hu

/-- An instruction outside the named groups ends in a record update that names neither field. -/
theorem exec_writesOnly {i : Instr} {s t : State} (h : exec i s = .next t) :
    Instr.WritesOnly i s t := by
  cases i with
  | slipEnc input ob => exact .of_issueInto h ((slipEncOp_silent input ob.cap s).writesOnly _)
  | slipDec input ob => exact .of_issueInto h ((slipDecOp_silent input ob.cap s).writesOnly _)
  | ipBuild | icmpBuild | tcpBuild =>
    exact .of_issueInto h ((s.finishBuild_silent _).writesOnly _)
  | udpBuild =>
    refine .of_issueInto h (State.Silent.writesOnly ?_ _)
    split <;> exact {}
  | ipParse | icmpParse | udpParse | tcpParse | udpCsum =>
    refine .of_issue h (State.Silent.writesOnly ?_ _)
    split <;> exact {}
  | slipEnd | slipEsc | slipEscEnd | slipEscEsc | slipInvalid =>
    exact .of_issue h ((slipDecOp_silent _ _ s).writesOnly _)
  | tcpSegIn sip dip hdr plen app => exact .of_issue h (tcpSegInOp_writesOnly sip dip hdr plen app s)
  | tcpClose slot => exact .of_issue h (tcpCloseOp_writesOnly slot s)
  | txFrame input =>
    exact .of_issue h ((finishSend_appends (transmit_appends input s)).writesOnly rfl)
  | echoReply =>
    exact .of_issue h ((finishSend_appends (echoReply_appends _ _ _ _ _ s)).writesOnly rfl)
  | sendSeg d => exact .of_issue h ((finishSend_appends (sendSeg_appends d s)).writesOnly rfl)
  | ipProtoIcmp =>
    exact .of_issue h (((icmpBranch_appends _ _ _ s).trans
      (finishVerdict_silent _).appends).writesOnly rfl)
  | icmpEchoRequest =>
    exact .of_issue h (((echoRequestAction_appends _ _ _ _ _ s).trans
      (finishVerdict_silent _).appends).writesOnly rfl)
  | dispatch f =>
    have hframe := dispatchFrame_atMostReclaims f s
    exact .of_issue h ((finishVerdict_atMostReclaims hframe).writesOnly rfl rfl)
  | ipProtoTcp src dst p =>
    have hbranch := tcpBranch_atMostReclaims src dst p s
    exact .of_issue h ((finishVerdict_atMostReclaims hbranch).writesOnly rfl rfl)
  | ipProtoUdp =>
    exact .of_issue h (((udpBranch_silent _ _ _ s).trans (finishVerdict_silent _)).writesOnly _)
  | _ => exact .of_issue h (State.Silent.writesOnly {} _)

/-- Settles O56: the clauses of `Instr.WritesOnly`. -/
theorem onlyTheseWrite : Obligations.OnlyTheseWrite := fun _ _ _ h =>
  let ⟨happ, hline, htab, hfail⟩ := exec_writesOnly h
  ⟨happ, hline, htab, hfail⟩

end Sys2Proof.Machine
end

section
/-! PROOFS. The encoding family (spec/30_encoding.md R85 to R95): the parsers give back what the
builders wrote. A field read where it was written is the field; from this come the header records of
the built layouts, and from those the round trips. -/

namespace Sys2Proof.Machine

/-! Fields (spec/00_scope.md R12, spec/20_memory.md R71). -/

/-- The two bytes `be16` writes, put together again. -/
@[simp] theorem be16_join (v : U16) : v.extractLsb' 8 8 ++ v.extractLsb' 0 8 = v := by
  have h : (Except.ok (v.extractLsb' 8 8 ++ v.extractLsb' 0 8, []) : Read (U16 × List Byte)) =
      .ok (v, []) := readU16_put v []
  simpa using h

/-- The four bytes `be32` writes, put together again. -/
theorem be32_join (v : U32) :
    (v.extractLsb' 24 8 ++ v.extractLsb' 16 8) ++ (v.extractLsb' 8 8 ++ v.extractLsb' 0 8) = v := by
  have h : (Except.ok ((v.extractLsb' 24 8 ++ v.extractLsb' 16 8) ++
      (v.extractLsb' 8 8 ++ v.extractLsb' 0 8), []) : Read (U32 × List Byte)) = .ok (v, []) :=
    readU32_put v []
  simpa using h

/-- The slice behind a header names the payload. -/
theorem sliceBytes_append {hdr : List Byte} (payload : List Byte) {n : Nat} (h : hdr.length = n) :
    sliceBytes (hdr ++ payload) { offset := n, length := payload.length } = payload := by
  simp [sliceBytes, ← h]

/-! The IPv4 codec. -/

theorem exec_ipParse_ok {input : List Byte} {s : State} {hdr : IpHdr} {sl : Slice}
    (hs : s.rxs = .done) (h : ipParseBytes s.cfg input = .ok (hdr, sl)) :
    exec (.ipParse input) s = .next (s.complete 0 (.ip hdr sl)) := by
  change s.issue _ = _
  rw [State.issue_idle hs, h]

/-- IP_PARSE's algorithm when every test is passed (spec/42_ipv4.md R164). -/
theorem ipParseBytes_ok (cfg : Config.Params) {input : List Byte} (hmin : 20 ≤ input.length)
    (hhdr : ipHeaderLen input ≤ input.length)
    (htotal : (getBE16 input 2).toNat ≤ input.length) :
    ipParseBytes cfg input = .ok (ipHdrOf input,
      { offset := ipHeaderLen input, length := input.length - ipHeaderLen input }) := by
  simp [ipParseBytes, Nat.not_lt.mpr hmin, Nat.not_lt.mpr hhdr, Nat.not_lt.mpr htotal]

/-- The fields of R85 are read where they stand. -/
theorem ipHdrOf_ipHeaderBytes (cfg : Config.Params) (src dst : IP4) (protocol : Byte) (n : Nat)
    (ck : U16) (payload : List Byte) :
    ipHdrOf (ipHeaderBytes cfg src dst protocol n ck ++ payload) =
      { version := 4#4, ihl := 5#4, tos := 0x00#8, totalLength := BitVec.ofNat 16 (20 + n),
        identification := cfg.ipId, flagsFrag := 0x4000#16, ttl := 64#8, protocol := protocol,
        checksum := ck, src := src, dst := dst } := by
  simp [ipHdrOf, ipHeaderBytes, getBE16, getIP4, byteAt, be16, IP4.bytes]

/-- The total length of a built packet is its own length, so that no test fails whether it is
checked (spec/42_ipv4.md R168) or not. -/
theorem ipParseBytes_ipPacket (cfg : Config.Params) (src dst : IP4) (protocol : Byte)
    {payload : List Byte} (h : 20 + payload.length ≤ 65535) :
    ∃ ck, ipParseBytes cfg (ipPacket cfg src dst protocol payload) = .ok
      ({ version := 4#4, ihl := 5#4, tos := 0x00#8,
         totalLength := BitVec.ofNat 16 (20 + payload.length), identification := cfg.ipId,
         flagsFrag := 0x4000#16, ttl := 64#8, protocol := protocol, checksum := ck, src := src,
         dst := dst },
       { offset := 20, length := payload.length }) := by
  have hfields := ipHdrOf_ipHeaderBytes cfg src dst protocol payload.length
    (csum (ipHeaderBytes cfg src dst protocol payload.length 0x0000#16)) payload
  rw [← ipPacket] at hfields
  have hlen := length_ipPacket cfg src dst protocol payload
  have hihl : ipHeaderLen (ipPacket cfg src dst protocol payload) = 20 :=
    congrArg (fun hdr : IpHdr => hdr.ihl.toNat * 4) hfields
  have htotal : getBE16 (ipPacket cfg src dst protocol payload) 2 = _ :=
    congrArg IpHdr.totalLength hfields
  rw [ipParseBytes_ok cfg (by omega) (by omega) (by rw [htotal, BitVec.toNat_ofNat]; omega),
    hfields, hihl, hlen, Nat.add_sub_cancel_left]
  exact ⟨_, rfl⟩

/-- Settles O14. -/
theorem ipBuildThenParse : Obligations.IpBuildThenParse := by
  intro src dst protocol payload s hs hlen
  obtain ⟨ck, hparse⟩ := ipParseBytes_ipPacket s.cfg src dst protocol hlen
  exact ⟨0, ck, exec_ipParse_ok hs hparse, sliceBytes_append payload rfl⟩

/-! The ICMP and UDP codecs. -/

theorem exec_icmpParse_ok {input : List Byte} {s : State} {hdr : IcmpHdr} {sl : Slice}
    (hs : s.rxs = .done) (h : icmpParseBytes input = .ok (hdr, sl)) :
    exec (.icmpParse input) s = .next (s.complete 0 (.icmp hdr sl)) := by
  change s.issue _ = _
  rw [State.issue_idle hs, h]

theorem exec_udpParse_ok {input : List Byte} {s : State} {hdr : UdpHdr} {sl : Slice}
    (hs : s.rxs = .done) (h : udpParseBytes input = .ok (hdr, sl)) :
    exec (.udpParse input) s = .next (s.complete 0 (.udp hdr sl)) := by
  change s.issue _ = _
  rw [State.issue_idle hs, h]

/-- The fields of R89 are read where they stand. -/
theorem icmpParseBytes_icmpBytes (type : Byte) (identifier sequence : U16) (payload : List Byte)
    (ck : U16) :
    icmpParseBytes (icmpBytes type identifier sequence payload ck) = .ok
      ({ type := type, code := 0x00#8, checksum := ck, identifier := identifier,
         sequence := sequence },
       { offset := 8, length := payload.length }) := by
  simp [icmpParseBytes, icmpHdrOf, icmpBytes, getBE16, byteAt, be16]

/-- The length field of a datagram is its own length (R91), so that no test of UDP_PARSE fails. -/
theorem udpParseBytes_udpBytes (srcPort dstPort : U16) {payload : List Byte} (ck : U16)
    (h : 8 + payload.length ≤ 65535) :
    udpParseBytes (udpBytes srcPort dstPort payload ck) = .ok
      ({ srcPort := srcPort, dstPort := dstPort, length := BitVec.ofNat 16 (8 + payload.length),
         checksum := ck },
       { offset := 8, length := payload.length }) := by
  have hlen : (udpBytes srcPort dstPort payload ck).length = 8 + payload.length := by
    simp [udpBytes]
    omega
  have hfield : (getBE16 (udpBytes srcPort dstPort payload ck) 4).toNat = 8 + payload.length := by
    rw [show getBE16 (udpBytes srcPort dstPort payload ck) 4 = _ from be16_join _,
      BitVec.toNat_ofNat]
    omega
  rw [udpParseBytes, hlen, hfield, if_neg (by omega), if_neg (by omega), if_neg (by omega),
    Nat.add_sub_cancel_left]
  simp [udpBytes, getBE16, byteAt, be16]

/-- Settles O20. -/
theorem messageBuildThenParse : Obligations.MessageBuildThenParse := by
  constructor
  · intro type identifier sequence payload s hs
    have hparse := icmpParseBytes_icmpBytes type identifier sequence payload
      (csum (icmpBytes type identifier sequence payload 0x0000#16))
    exact ⟨0, _, exec_icmpParse_ok hs hparse, sliceBytes_append payload rfl⟩
  · intro srcPort dstPort payload s hs hlen
    have hparse := udpParseBytes_udpBytes srcPort dstPort 0x0000#16 hlen
    exact ⟨0, exec_udpParse_ok hs hparse, sliceBytes_append payload rfl⟩

/-! The TCP codec. -/

theorem exec_tcpParse_ok {input : List Byte} {s : State} {hdr : TcpHdr} {sl : Slice}
    (hs : s.rxs = .done) (h : tcpParseBytes input = .ok (hdr, sl)) :
    exec (.tcpParse input) s = .next (s.complete 0 (.tcp hdr sl)) := by
  change s.issue _ = _
  rw [State.issue_idle hs, h]

/-- The fields of R92 are read where they stand. -/
theorem tcpHdrOf_tcpBytes (d : SegDesc) (ck : U16) :
    tcpHdrOf (tcpBytes d ck) =
      { srcPort := d.srcPort, dstPort := d.dstPort, seq := d.seq, ack := d.ack,
        offFlags := 0x5000#16 ||| d.flags.setWidth 16, window := d.window, checksum := ck,
        urgent := 0x0000#16 } := by
  have hseq : getBE32 (tcpBytes d ck) 4 = d.seq := be32_join d.seq
  have hack : getBE32 (tcpBytes d ck) 8 = d.ack := be32_join d.ack
  rw [tcpHdrOf, hseq, hack]
  simp [tcpBytes, getBE16, byteAt, be16, be32]

/-- No flag bit reaches the data-offset nibble of the off_flags word (R93). -/
theorem dataOffset_offFlags (flags : BitVec 9) :
    ((0x5000#16 ||| flags.setWidth 16).extractLsb' 8 8).extractLsb' 4 4 = 5#4 := by
  have hflags : ((flags.setWidth 16).extractLsb' 8 8).extractLsb' 4 4 = 0#4 := by
    ext i hi
    simp [BitVec.getLsbD_of_ge flags (8 + (4 + i)) (by omega)]
  rw [BitVec.extractLsb'_or, BitVec.extractLsb'_or, hflags]
  rfl

/-- The data offset of a built segment is 5, so that the payload starts at byte 20 (R92, R97). -/
theorem tcpParseBytes_tcpBytes (d : SegDesc) (ck : U16) :
    tcpParseBytes (tcpBytes d ck) = .ok
      ({ srcPort := d.srcPort, dstPort := d.dstPort, seq := d.seq, ack := d.ack,
         offFlags := 0x5000#16 ||| d.flags.setWidth 16, window := d.window, checksum := ck,
         urgent := 0x0000#16 },
       { offset := 20, length := d.payload.length }) := by
  have hlen : (tcpBytes d ck).length = 20 + d.payload.length := by
    simp [tcpBytes]
    omega
  have hoff : tcpHeaderLen (tcpBytes d ck) = 20 :=
    congrArg (fun nibble => nibble.toNat * 4) (dataOffset_offFlags d.flags)
  rw [tcpParseBytes, hlen, hoff, if_neg (by omega), if_neg (by omega), tcpHdrOf_tcpBytes,
    Nat.add_sub_cancel_left]

/-- Settles O24. -/
theorem tcpBuildThenParse : Obligations.TcpBuildThenParse := by
  intro d s hs
  have hparse : tcpParseBytes (tcpSegment d) = _ := tcpParseBytes_tcpBytes d _
  exact ⟨0, _, exec_tcpParse_ok hs hparse, sliceBytes_append d.payload rfl⟩

end Sys2Proof.Machine
end

section
/-! PROOFS. The encoding family: the symbol rows (spec/30_encoding.md R81, R84, R93, R94), the
reserved codes (R112) and the status every instruction ends with (R112, spec/60_exceptions.md
R302). -/

namespace Sys2Proof.Machine

/-! The symbols of a SLIP line. -/

/-- SLIP_DEC ends with the status of the event that ended its scan (spec/40_slip.md R135). -/
theorem slipDecOp_status (input : List Byte) (cap : Nat) (s : State) :
    (slipDecOp input cap s).status = (slipDecode cap input).2.status := by
  unfold slipDecOp
  split <;> rename_i heq <;> rw [heq] <;> rfl

/-- A SLIP_DEC whose scan completes no frame fails: of its registers and its output buffer nothing
is said. -/
theorem slipDecOp_failedInto {input : List Byte} {cap : Nat} (s : State)
    (h : ∀ n, (slipDecode cap input).2 ≠ .frame n) :
    ∃ e p c, State.failedInto { s with esc := e, pos := p, cur := c } (slipDecOp input cap s)
      (slipDecode cap input).2.status := by
  unfold slipDecOp
  split
  · rename_i n heq
    exact absurd (congrArg Prod.snd heq) (h n)
  · rename_i d ev _ heq
    rw [heq]
    exact ⟨d.esc, d.pos, d.cur, _, _, _, _, rfl⟩

/-- END with nothing emitted before it is skipped (R136). -/
theorem slipDecode_end (cap : Nat) : (slipDecode cap [slipEND]).2 = .more := rfl

/-- A dangling ESC (R138). -/
theorem slipDecode_esc (cap : Nat) : (slipDecode cap [slipESC]).2 = .more := rfl

/-- After an ESC the two escape codes put their data byte, if there is room for it (R134, R139). -/
theorem slipDecode_escaped (cap : Nat) {b : Byte} (h : b = slipESCEND ∨ b = slipESCESC) :
    (slipDecode cap [slipESC, b]).2 = if cap = 0 then .overflow else .more := by
  rcases h with rfl | rfl <;> by_cases hc : cap = 0 <;>
    simp [slipDecode, decScan, decFeed, decStep, decPut, decStart, slipEND, slipESC, slipESCEND,
      slipESCESC, hc]

/-- After an ESC any other byte is a protocol error (R84, R137). -/
theorem slipDecode_invalid (cap : Nat) {b : Byte} (h1 : b ≠ slipESCEND) (h2 : b ≠ slipESCESC) :
    (slipDecode cap [slipESC, b]).2 = .badEscape := by
  simp [slipDecode, decScan, decFeed, decStep, decStart, slipEND, slipESC, h1, h2]

/-- A symbol row that completes no frame fails with the status of its event. -/
theorem slipSymbol_failedInto {line : List Byte} {s : State} {ev : DecEvent} (hs : s.rxs = .done)
    (h : (slipDecode s.cfg.frameCap line).2 = ev) (hev : ∀ n, ev ≠ .frame n) :
    ∃ t e p c, s.issue (slipSymbolOp line s) = .next t ∧
      State.failedInto { s with esc := e, pos := p, cur := c } t ev.status := by
  subst h
  obtain ⟨e, p, c, hfail⟩ := slipDecOp_failedInto s hev
  exact ⟨_, e, p, c, State.issue_idle hs _, hfail⟩

/-- Settles O46. -/
theorem slipSymbolSteps : Obligations.SlipSymbolSteps := by
  intro s hs
  have escaped {b : Byte} (hb : b = slipESCEND ∨ b = slipESCESC) :
      ∃ t e p c, s.issue (slipSymbolOp [slipESC, b] s) = .next t ∧
        State.failedInto { s with esc := e, pos := p, cur := c } t
          (if s.cfg.frameCap = 0 then .outOverflow else .incomplete) := by
    have hev := slipDecode_escaped s.cfg.frameCap hb
    by_cases hc : s.cfg.frameCap = 0
    · rw [if_pos hc] at hev ⊢
      exact slipSymbol_failedInto hs hev nofun
    · rw [if_neg hc] at hev ⊢
      exact slipSymbol_failedInto hs hev nofun
  refine ⟨fun i hi => ?_, fun i hi => ?_, fun b hEnd hEsc => ?_, fun i line hline => ?_⟩
  · fin_cases hi
    · exact slipSymbol_failedInto hs (slipDecode_end _) nofun
    · exact slipSymbol_failedInto hs (slipDecode_esc _) nofun
  · fin_cases hi
    · exact escaped (.inl rfl)
    · exact escaped (.inr rfl)
  · exact slipSymbol_failedInto hs (slipDecode_invalid _ hEnd hEsc) nofun
  · unfold slipSymbolLine at hline
    split at hline <;> cases hline <;> rfl

/-! The symbols of the off_flags word. -/

/-- A one-bit symbol is present exactly when its bit is set (R94). -/
theorem wordHas_bit (w : U16) {k : Nat} (hk : k < 16) :
    wordHas w (BitVec.twoPow 16 k) (BitVec.twoPow 16 k) = w.getLsbD k := by
  have hne : 0#16 ≠ BitVec.twoPow 16 k := by
    intro h
    simpa [hk] using congrArg (BitVec.getLsbD · k) h
  rw [wordHas, BitVec.and_twoPow]
  cases w.getLsbD k
  · exact beq_eq_false_iff_ne.mpr hne
  · exact beq_self_eq_true _

/-- The data-offset symbol is present exactly when the top nibble is 5 (R93). -/
theorem wordHas_dataOffset5 (w : U16) :
    wordHas w maskDataOffset dataOffset5 = decide ((w >>> 12).toNat = 5) := by
  have hmask : w &&& maskDataOffset = (w >>> 12) <<< 12 :=
    (BitVec.shiftLeft_ushiftRight (x := w) (n := 12)).symm
  have hnibble : (w >>> 12).toNat < 16 := by
    rw [BitVec.toNat_ushiftRight, Nat.shiftRight_eq_div_pow]
    omega
  rw [wordHas, hmask, Bool.eq_iff_iff, beq_iff_eq, decide_eq_true_iff, ← BitVec.toNat_inj,
    BitVec.toNat_shiftLeft, Nat.shiftLeft_eq, show dataOffset5.toNat = 5 * 2 ^ 12 from rfl]
  omega

/-- Settles O47. -/
theorem tcpSymbolsPresent : Obligations.TcpSymbolsPresent := by
  intro w s hs
  have run (mask pattern : U16) : s.issue (matchWord w mask pattern s) = .next { s with
      status := .ok, count := 0, result := .present (wordHas w mask pattern) } :=
    State.issue_idle hs _
  refine ⟨fun i k hik => ⟨0, ?_⟩, 0, ?_⟩
  · have bit (hk : k < 16) := wordHas_bit w hk ▸ run (BitVec.twoPow 16 k) (BitVec.twoPow 16 k)
    fin_cases hik <;> exact bit (by decide)
  · exact wordHas_dataOffset5 w ▸ run maskDataOffset dataOffset5

/-! The reserved codes. -/

/-- Settles O48. -/
theorem reservedCodes : Obligations.ReservedCodes := by
  intro i s hs hi
  have run : exec i s = s.issue (illegalOp s) := by
    fin_cases hi <;> rfl
  exact ⟨_, run.trans (State.issue_idle hs _), _, _, _, rfl⟩

/-! The table words. -/

/-- Settles O60. -/
theorem decodeWords : Obligations.DecodeWords := by
  refine ⟨?_, ?_, ?_, ?_, ?_, ?_, ?_, ?_, ?_⟩ <;> decide

/-! The statuses (R112, spec/60_exceptions.md R302). -/

/-- The status an algorithm's answer ends its operation with. -/
def answerStatus {α : Type} : Except Status α → Status
  | .ok _ => .ok
  | .error st => st

@[simp] theorem answerStatus_ok {α : Type} (a : α) : answerStatus (.ok a) = .ok := rfl

@[simp] theorem answerStatus_error {α : Type} (st : Status) :
    answerStatus (.error st : Except Status α) = st := rfl

theorem finishBuild_status (s : State) (r : Except Status Built) :
    (s.finishBuild r).status = answerStatus r := by cases r <;> rfl

theorem finishSend_status (r : State × Except Status Nat) :
    (finishSend r).status = answerStatus r.2 := by
  obtain ⟨s, n | st⟩ := r <;> rfl

/-- Issuing leaves the status the operation leaves. -/
theorem status_of_issue {s t u : State} {st : Status} {l : List Status} (h : s.issue u = .next t)
    (hu : u.status = st) (hl : st ∈ l) : t.status ∈ l := by
  rwa [← (State.issue_eq_next.mp h).2, hu]

theorem status_of_issueInto {s t u : State} {ob : OutBuf} {st : Status} {l : List Status}
    (h : s.issueInto ob u = .next t) (hu : u.status = st) (hl : st ∈ l) : t.status ∈ l := by
  rwa [← (State.issueInto_eq_next.mp h).2.2, hu]

/-! The codecs. -/

theorem slipEncOp_status (input : List Byte) (cap : Nat) (s : State) :
    (slipEncOp input cap s).status ∈ [.ok, .outOverflow] := by
  unfold slipEncOp
  split <;> simp

theorem DecEvent.status_mem (ev : DecEvent) :
    ev.status ∈ [.ok, .incomplete, .badEscape, .outOverflow] := by
  cases ev <;> simp [DecEvent.status]

theorem slipDecode_escaped_status (cap : Nat) {b : Byte} (h : b = slipESCEND ∨ b = slipESCESC) :
    (slipDecode cap [slipESC, b]).2.status ∈ [.incomplete, .outOverflow] := by
  rw [slipDecode_escaped cap h]
  split <;> simp [DecEvent.status]

/-- After an ESC no byte completes a frame (R134, R137). -/
theorem slipDecode_afterEsc_status (cap : Nat) (b : Byte) :
    (slipDecode cap [slipESC, b]).2.status ∈ [.incomplete, .badEscape, .outOverflow] := by
  by_cases h : b = slipESCEND ∨ b = slipESCESC
  · have hsub : ([.incomplete, .outOverflow] : List Status) ⊆
        [.incomplete, .badEscape, .outOverflow] := by decide
    exact hsub (slipDecode_escaped_status cap h)
  · obtain ⟨h1, h2⟩ := not_or.mp h
    rw [slipDecode_invalid cap h1 h2]
    simp [DecEvent.status]

theorem ipBuildBytes_status (cfg : Config.Params) (src dst : IP4) (protocol : Byte)
    (payload : List Byte) (cap : Nat) :
    answerStatus (ipBuildBytes cfg src dst protocol payload cap) ∈
      [.ok, .lenRange, .outOverflow] := by
  rw [ipBuildBytes_eq]
  split_ifs <;> simp

theorem icmpBuildBytes_status (type : Byte) (identifier sequence : U16) (payload : List Byte)
    (cap : Nat) :
    answerStatus (icmpBuildBytes type identifier sequence payload cap) ∈ [.ok, .outOverflow] := by
  rw [icmpBuildBytes_eq]
  split <;> simp

theorem udpBuildBytes_status (srcPort dstPort : U16) (payload : List Byte) (cap : Nat) :
    answerStatus (udpBuildBytes srcPort dstPort payload cap) ∈ [.ok, .lenRange, .outOverflow] := by
  unfold udpBuildBytes
  split_ifs <;> simp

theorem tcpBuildBytes_status (d : SegDesc) (cap : Nat) :
    answerStatus (tcpBuildBytes d cap) ∈ [.ok, .lenRange, .outOverflow] := by
  rw [tcpBuildBytes_eq]
  split_ifs <;> simp

theorem ipParseBytes_status (cfg : Config.Params) (input : List Byte) :
    answerStatus (ipParseBytes cfg input) ∈ [.ok, .tooShort, .badLength] := by
  unfold ipParseBytes
  split_ifs <;> simp

theorem icmpParseBytes_status (input : List Byte) :
    answerStatus (icmpParseBytes input) ∈ [.ok, .tooShort] := by
  unfold icmpParseBytes
  split <;> simp

theorem udpParseBytes_status (input : List Byte) :
    answerStatus (udpParseBytes input) ∈ [.ok, .tooShort, .badLength] := by
  unfold udpParseBytes
  split_ifs <;> simp

theorem tcpParseBytes_status (input : List Byte) :
    answerStatus (tcpParseBytes input) ∈ [.ok, .tooShort, .badLength] := by
  unfold tcpParseBytes
  split_ifs <;> simp

theorem udpCsumBytes_status (srcIp dstIp : IP4) (dgram : List Byte) :
    answerStatus (udpCsumBytes srcIp dstIp dgram) ∈ [.ok, .tooShort, .lenRange] := by
  unfold udpCsumBytes
  split_ifs <;> simp

/-! The transmit path (spec/43_icmp.md R186, spec/46_tcp_fsm.md R248). -/

/-- Steps without a length field (ICMP_BUILD, TX_FRAME) fail in fewer ways than the whole
expansion. -/
theorem sendStatuses_subset :
    ([.ok, .outOverflow] : List Status) ⊆ [.ok, .lenRange, .outOverflow] := by decide

theorem transmit_status (bs : List Byte) (s : State) :
    answerStatus (transmit bs s).2 ∈ [.ok, .outOverflow] := by
  unfold transmit
  split <;> simp

theorem sendPacket_status (src dst : IP4) (protocol : Byte) (m : Built) (s : State) :
    answerStatus (sendPacket src dst protocol m s).2 ∈ [.ok, .lenRange, .outOverflow] := by
  have hbuild := ipBuildBytes_status s.cfg src dst protocol m.bytes s.cfg.pktCap
  simp only [sendPacket]
  split <;> rename_i heq
  · exact sendStatuses_subset (transmit_status _ _)
  · rwa [heq] at hbuild

theorem echoReply_status (src dst : IP4) (identifier sequence : U16) (payload : List Byte)
    (s : State) :
    answerStatus (echoReply src dst identifier sequence payload s).2 ∈
      [.ok, .lenRange, .outOverflow] := by
  have hbuild := icmpBuildBytes_status icmpTypeEchoReply identifier sequence payload s.cfg.segCap
  unfold echoReply
  split <;> rename_i heq
  · exact sendPacket_status _ _ _ _ s
  · rw [heq] at hbuild
    exact sendStatuses_subset hbuild

theorem sendSeg_status (d : SegDesc) (s : State) :
    answerStatus (sendSeg d s).2 ∈ [.ok, .lenRange, .outOverflow] := by
  have hbuild := tcpBuildBytes_status d s.cfg.segCap
  unfold sendSeg
  split <;> rename_i heq
  · exact sendPacket_status _ _ _ _ s
  · rwa [heq] at hbuild

/-! The table. -/

theorem tcpSegInOp_status (sip dip : IP4) (hdr : TcpHdr) (plen : Nat) (app : List Byte)
    (s : State) :
    (tcpSegInOp sip dip hdr plen app s).status ∈ [.ok, .tableFull, .noConn] := by
  unfold tcpSegInOp
  rcases segInTable_cases s.cfg sip dip hdr plen app s.tab with
    ⟨_, _, _, h⟩ | ⟨_, ⟨_, _, _, h⟩ | ⟨_, _, h⟩ | ⟨_, h⟩⟩ <;> rw [h] <;> simp [State.raiseSegIn]

theorem tcpCloseOp_status (slot : Nat) (s : State) :
    (tcpCloseOp slot s).status ∈ [.ok, .noConn] := by
  unfold tcpCloseOp
  split <;> simp

/-! DISPATCH and its branches (spec/47_rx_dispatch.md R290). -/

theorem echoRequestAction_status (src dst : IP4) (identifier sequence : U16) (payload : List Byte)
    (s : State) :
    (echoRequestAction src dst identifier sequence payload s).1.status ∈ [.ok, .dropped] := by
  unfold echoRequestAction
  split <;> simp [verdictOk, dropFor]

theorem icmpBranch_status (src dst : IP4) (p : List Byte) (s : State) :
    (icmpBranch src dst p s).1.status ∈ [.ok, .dropped] := by
  unfold icmpBranch
  split
  · simp [dropFor]
  · split
    · exact echoRequestAction_status _ _ _ _ _ s
    · split <;> simp [dropFor, echoReplyAction, reportEvent]

theorem udpBranch_status (src dst : IP4) (p : List Byte) (s : State) :
    (udpBranch src dst p s).1.status ∈ [.ok, .dropped] := by
  unfold udpBranch
  split <;> simp [dropFor, reportEvent]

theorem tcpBranch_status (src dst : IP4) (p : List Byte) (s : State) :
    (tcpBranch src dst p s).1.status ∈ [.ok, .dropped] := by
  unfold tcpBranch
  split
  · simp [dropFor]
  · simp only
    split <;> simp [dropFor, reportEvent]

theorem dispatchFrame_status (frame : List Byte) (s : State) :
    (dispatchFrame frame s).1.status ∈ [.ok, .dropped] := by
  unfold dispatchFrame
  split
  · simp [dropFor]
  · split
    · exact icmpBranch_status _ _ _ s
    · split
      · exact udpBranch_status _ _ _ s
      · split
        · exact tcpBranch_status _ _ _ s
        · simp [dropFor]

/-! Every instruction. -/

/-- Each instruction's status is that of the operation it issues; those left to the last case end
with one status on every path. -/
theorem exec_status {i : Instr} {s t : State} (hi : ∀ h, i ≠ .rxPoll h)
    (h : exec i s = .next t) : t.status ∈ statusesOf i := by
  cases i with
  | rxPoll handler => exact absurd rfl (hi handler)
  | slipEnc input ob => exact status_of_issueInto h rfl (slipEncOp_status input ob.cap s)
  | slipDec input ob =>
    exact status_of_issueInto h (slipDecOp_status input ob.cap s) (DecEvent.status_mem _)
  | ipBuild =>
    exact status_of_issueInto h (finishBuild_status s _) (ipBuildBytes_status _ _ _ _ _ _)
  | icmpBuild =>
    exact status_of_issueInto h (finishBuild_status s _) (icmpBuildBytes_status _ _ _ _ _)
  | tcpBuild => exact status_of_issueInto h (finishBuild_status s _) (tcpBuildBytes_status _ _)
  | udpBuild _ _ srcPort dstPort payload ob =>
    exact status_of_issueInto h (by cases udpBuildBytes srcPort dstPort payload ob.cap <;> rfl)
      (udpBuildBytes_status srcPort dstPort payload ob.cap)
  | ipParse input =>
    exact status_of_issue h (by cases ipParseBytes s.cfg input <;> rfl)
      (ipParseBytes_status s.cfg input)
  | icmpParse input =>
    exact status_of_issue h (by cases icmpParseBytes input <;> rfl) (icmpParseBytes_status input)
  | udpParse input =>
    exact status_of_issue h (by cases udpParseBytes input <;> rfl) (udpParseBytes_status input)
  | tcpParse input =>
    exact status_of_issue h (by cases tcpParseBytes input <;> rfl) (tcpParseBytes_status input)
  | udpCsum src dst dgram =>
    exact status_of_issue h (by cases udpCsumBytes src dst dgram <;> rfl)
      (udpCsumBytes_status src dst dgram)
  | tcpSegIn => exact status_of_issue h rfl (tcpSegInOp_status _ _ _ _ _ s)
  | tcpClose slot => exact status_of_issue h rfl (tcpCloseOp_status slot s)
  | txFrame input => exact status_of_issue h (finishSend_status _) (transmit_status input s)
  | echoReply => exact status_of_issue h (finishSend_status _) (echoReply_status _ _ _ _ _ s)
  | sendSeg d => exact status_of_issue h (finishSend_status _) (sendSeg_status d s)
  | dispatch f => exact status_of_issue h (finishVerdict_status _) (dispatchFrame_status f s)
  | ipProtoIcmp => exact status_of_issue h (finishVerdict_status _) (icmpBranch_status _ _ _ s)
  | ipProtoTcp => exact status_of_issue h (finishVerdict_status _) (tcpBranch_status _ _ _ s)
  | ipProtoUdp => exact status_of_issue h (finishVerdict_status _) (udpBranch_status _ _ _ s)
  | icmpEchoRequest =>
    exact status_of_issue h (finishVerdict_status _) (echoRequestAction_status _ _ _ _ _ s)
  | slipEscEnd =>
    exact status_of_issue h (slipDecOp_status _ _ s) (slipDecode_escaped_status _ (.inl rfl))
  | slipEscEsc =>
    exact status_of_issue h (slipDecOp_status _ _ s) (slipDecode_escaped_status _ (.inr rfl))
  | slipInvalid b =>
    exact status_of_issue h (slipDecOp_status _ _ s) (slipDecode_afterEsc_status _ b)
  | _ => exact status_of_issue h rfl (List.mem_singleton_self _)

/-- Settles O57. -/
theorem statusAllowed : Obligations.StatusAllowed := fun _ _ _ hi h => exec_status hi h

end Sys2Proof.Machine
end

section
/-! PROOFS. The SLIP framer (spec/40_slip.md). The encoder's answer is the frame of R82 or a failure;
the decoder's answer is read off the form of its line: delimiters, a stuffed body, and what ends the
body. Every line has one of these forms, and a frame is one of them, which gives the round trip. -/

namespace Sys2Proof.Machine

/-! The stuffed form (spec/30_encoding.md R82). -/

theorem stuffed_cons_plain {b : Byte} (bs : List Byte) (hEnd : b ≠ 0xC0#8) (hEsc : b ≠ 0xDB#8) :
    stuffed (b :: bs) = b :: stuffed bs := by
  simp [stuffed_cons, hEnd, hEsc]

/-- A data byte's symbol is an ESC and one of the two escape codes, or the byte itself. -/
theorem stuffed_cons_cases (b : Byte) (bs : List Byte) :
    (∃ e, (e = 0xDC#8 ∨ e = 0xDD#8) ∧ stuffed (b :: bs) = 0xDB#8 :: e :: stuffed bs) ∨
      (b ≠ 0xC0#8 ∧ b ≠ 0xDB#8 ∧ stuffed (b :: bs) = b :: stuffed bs) := by
  by_cases hEnd : b = 0xC0#8
  · exact .inl ⟨0xDC#8, .inl rfl, by rw [hEnd]; rfl⟩
  by_cases hEsc : b = 0xDB#8
  · exact .inl ⟨0xDD#8, .inr rfl, by rw [hEsc]; rfl⟩
  · exact .inr ⟨hEnd, hEsc, stuffed_cons_plain bs hEnd hEsc⟩

@[simp] theorem slipFrame_length (bs : List Byte) :
    (slipFrame bs).length = bs.length + 2 + specialCount bs := by
  simp only [slipFrame, List.length_cons, List.length_append, List.length_nil, stuffed_length]
  omega

/-- A frame is one delimiter, the stuffed body and the terminator. -/
theorem slipFrame_eq (bs : List Byte) : slipFrame bs = delims 1 ++ stuffed bs ++ 0xC0#8 :: [] := rfl

theorem end_notMem_stuffed (bs : List Byte) : (0xC0#8 : Byte) ∉ stuffed bs := by
  induction bs with
  | nil => exact List.not_mem_nil
  | cons b bs ih =>
    obtain ⟨e, rfl | rfl, h⟩ | ⟨hEnd, _, h⟩ := stuffed_cons_cases b bs <;> rw [h]
    · simpa using ih
    · simpa using ih
    · simpa [hEnd.symm] using ih

/-- In a stuffed body an ESC opens one of the two escapes. -/
theorem stuffed_esc_next {bs : List Byte} {k : Nat} (h : (stuffed bs)[k]? = some 0xDB#8) :
    (stuffed bs)[k + 1]? = some 0xDC#8 ∨ (stuffed bs)[k + 1]? = some 0xDD#8 := by
  induction bs generalizing k with
  | nil => simp at h
  | cons b bs ih =>
    obtain ⟨e, he, hcons⟩ | ⟨_, hEsc, hcons⟩ := stuffed_cons_cases b bs <;> rw [hcons] at h ⊢
    · match k with
      | 0 => simpa using he
      | 1 => rcases he with rfl | rfl <;> simp at h
      | k + 2 => exact ih h
    · match k with
      | 0 => simp [hEsc] at h
      | k + 1 => exact ih h

/-! SLIP_ENC (spec/40_slip.md R130 to R132). -/

theorem exec_slipEnc_idle {s : State} {ob : OutBuf} (input : List Byte) (hs : s.rxs = .done)
    (ho : ob.overlaps = false) :
    exec (.slipEnc input ob) s = .next (slipEncOp input ob.cap s) := State.issueInto_idle hs ho _

theorem exec_slipEnc_eq_next {input : List Byte} {ob : OutBuf} {s t : State} :
    exec (.slipEnc input ob) s = .next t ↔
      ob.overlaps = false ∧ s.rxs = .done ∧ slipEncOp input ob.cap s = t := State.issueInto_eq_next

/-- SLIP_ENC when the frame fits. -/
theorem slipEncOp_fits {input : List Byte} {cap : Nat} (s : State)
    (h : input.length + 2 + specialCount input ≤ cap) :
    slipEncOp input cap s = { s with
      encPos := input.length + 2 + specialCount input, encCur := input.length, status := .ok,
      count := input.length + 2 + specialCount input,
      out := Memory.ofBytes (slipFrame input), result := .counted } := by
  simp [slipEncOp, slipEncode_ok h, State.completeInto, State.setEnc]

/-- SLIP_ENC when the frame does not fit. -/
theorem slipEncOp_failedInto {input : List Byte} {cap : Nat} (s : State)
    (h : cap < input.length + 2 + specialCount input) :
    ∃ p c, State.failedInto { s with encPos := p, encCur := c } (slipEncOp input cap s)
      .outOverflow := by
  obtain ⟨e, he⟩ := slipEncode_error h
  rw [slipEncOp, he]
  exact ⟨e.pos, e.cur, _, _, _, _, rfl⟩

theorem State.failedInto.status_eq {s t : State} {st : Status} (h : s.failedInto t st) :
    t.status = st := by
  obtain ⟨_, _, _, _, rfl⟩ := h
  rfl

/-- SLIP_ENC ends OK only when the frame fits. -/
theorem fits_of_slipEncOp_ok {input : List Byte} {cap : Nat} {s : State}
    (h : (slipEncOp input cap s).status = .ok) :
    input.length + 2 + specialCount input ≤ cap := by
  by_contra hfit
  obtain ⟨p, c, hfail⟩ := slipEncOp_failedInto s (Nat.lt_of_not_le hfit)
  rw [hfail.status_eq] at h
  cases h

/-- Settles O1. -/
theorem slipEncResult : Obligations.SlipEncResult := by
  intro input ob s hs ho
  rw [exec_slipEnc_idle input hs ho]
  refine ⟨fun hfit => ⟨_, _, congrArg _ (slipEncOp_fits s hfit)⟩, fun hfull => ?_⟩
  obtain ⟨p, c, hfail⟩ := slipEncOp_failedInto s hfull
  exact ⟨_, p, c, rfl, hfail⟩

/-- Settles O2: the body is the stuffed input. -/
theorem slipEncLengthLaw : Obligations.SlipEncLengthLaw := by
  intro input ob s t h hok
  obtain ⟨_, _, rfl⟩ := exec_slipEnc_eq_next.mp h
  have hspecial : specialCount input ≤ input.length := List.countP_le_length
  have hbody := stuffed_length input
  rw [slipEncOp_fits s (fits_of_slipEncOp_ok hok)]
  refine ⟨rfl, ?_, ?_, stuffed input, rfl, ?_, end_notMem_stuffed input, fun k => stuffed_esc_next⟩
  · change _ ≤ input.length + 2 + specialCount input
    omega
  · change input.length + 2 + specialCount input ≤ _
    omega
  · change _ = input.length + 2 + specialCount input
    omega

/-! SLIP_DEC on a line of a given form (R134 to R140). -/

/-- The decoder's registers after `k` delimiters and the stuffed body `bs`. -/
def decBody (k : Nat) (bs : List Byte) : Dec where
  esc := false
  pos := bs.length
  cur := k + (stuffed bs).length
  out := Memory.ofBytes bs

/-- After the delimiters and a body that fits, the rest of the line decides. -/
theorem slipDecode_after_body {cap : Nat} (k : Nat) {bs : List Byte} (hc : bs.length ≤ cap)
    (rest : List Byte) :
    slipDecode cap (delims k ++ stuffed bs ++ rest) = decScan cap rest (decBody k bs) := by
  rw [slipDecode, decScan_append, slipDecode_body k hc]
  rfl

/-- A delimiter after a non-empty body ends the scan (R136, R140). -/
theorem slipDecode_frame {cap : Nat} (k : Nat) {bs : List Byte} (hne : bs ≠ [])
    (hc : bs.length ≤ cap) (rest : List Byte) :
    slipDecode cap (delims k ++ stuffed bs ++ 0xC0#8 :: rest) =
      (decBody k bs, .frame bs.length) := by
  rw [slipDecode_after_body k hc]
  simp [decScan, decFeed, decStep, decBody, slipEND, hne]

/-- An ESC and a byte that is neither escape code end the scan (R137). -/
theorem decScan_badEscape (cap : Nat) {d : Dec} {x : Byte} (rest : List Byte) (he : d.esc = false)
    (hEnd : x ≠ 0xDC#8) (hEsc : x ≠ 0xDD#8) :
    (decScan cap (0xDB#8 :: x :: rest) d).2 = .badEscape := by
  simp [decScan, decFeed, decStep, slipEND, slipESC, slipESCEND, slipESCESC, he, hEnd, hEsc]

/-- A data byte met with the output full ends the scan (R139). -/
theorem decScan_overflow {cap : Nat} {d : Dec} (v : Byte) (rest : List Byte) (he : d.esc = false)
    (hp : cap ≤ d.pos) : (decScan cap (stuffed [v] ++ rest) d).2 = .overflow := by
  obtain ⟨e, rfl | rfl, h⟩ | ⟨hEnd, hEsc, h⟩ := stuffed_cons_cases v [] <;> rw [h]
  · simp [decScan, decFeed, decStep, decPut, slipEND, slipESC, slipESCEND, he, hp]
  · simp [decScan, decFeed, decStep, decPut, slipEND, slipESC, slipESCEND, slipESCESC, he, hp]
  · simp [decScan, decFeed, decStep, decPut, slipEND, slipESC, he, hp, hEnd, hEsc]

/-- An exhausted input, also after a dangling ESC, leaves the frame unfinished (R138). -/
theorem decScan_unfinished (cap : Nat) {d : Dec} {tail : List Byte} (he : d.esc = false)
    (ht : tail = [] ∨ tail = [0xDB#8]) : (decScan cap tail d).2 = .more := by
  rcases ht with rfl | rfl
  · rfl
  · simp [decScan, decFeed, decStep, slipEND, slipESC, he]

theorem exec_slipDec_idle {s : State} {ob : OutBuf} (input : List Byte) (hs : s.rxs = .done)
    (ho : ob.overlaps = false) :
    exec (.slipDec input ob) s = .next (slipDecOp input ob.cap s) := State.issueInto_idle hs ho _

theorem exec_slipDec_eq_next {input : List Byte} {ob : OutBuf} {s t : State} :
    exec (.slipDec input ob) s = .next t ↔
      ob.overlaps = false ∧ s.rxs = .done ∧ slipDecOp input ob.cap s = t := State.issueInto_eq_next

/-- SLIP_DEC when its scan completes a frame. -/
theorem slipDecOp_frame {input : List Byte} {cap n : Nat} {d : Dec} (s : State)
    (h : slipDecode cap input = (d, .frame n)) :
    slipDecOp input cap s = { s with
      esc := d.esc, pos := d.pos, cur := d.cur, status := .ok, count := n, out := d.out,
      result := .counted } := by
  rw [slipDecOp, h]
  rfl

/-- SLIP_DEC when its scan completes no frame. -/
theorem exec_slipDec_failedInto {input : List Byte} {ob : OutBuf} {s : State} {ev : DecEvent}
    (hs : s.rxs = .done) (ho : ob.overlaps = false) (h : (slipDecode ob.cap input).2 = ev)
    (hev : ∀ n, ev ≠ .frame n) :
    ∃ t e p c, exec (.slipDec input ob) s = .next t ∧
      State.failedInto { s with esc := e, pos := p, cur := c } t ev.status := by
  subst h
  obtain ⟨e, p, c, hfail⟩ := slipDecOp_failedInto s hev
  exact ⟨_, e, p, c, exec_slipDec_idle input hs ho, hfail⟩

/-- Settles O3. -/
theorem slipDecFrame : Obligations.SlipDecFrame := by
  intro k b rest ob s hs ho hne hc
  rw [exec_slipDec_idle _ hs ho]
  exact ⟨_, _, _, congrArg _ (slipDecOp_frame s (slipDecode_frame k hne hc rest))⟩

/-- Settles O4: each clause is the event that ends the scan after the body. -/
theorem slipDecOtherEnds : Obligations.SlipDecOtherEnds := by
  intro k b ob s hs ho hc
  have event {rest : List Byte} {ev : DecEvent} (h : (decScan ob.cap rest (decBody k b)).2 = ev) :
      (slipDecode ob.cap (delims k ++ stuffed b ++ rest)).2 = ev := by
    rw [slipDecode_after_body k hc, h]
  refine ⟨fun tail ht => ?_, fun x rest hEnd hEsc => ?_, fun v rest hfull => ?_⟩
  · exact exec_slipDec_failedInto hs ho (event (decScan_unfinished _ rfl ht)) nofun
  · exact exec_slipDec_failedInto hs ho (event (decScan_badEscape _ rest rfl hEnd hEsc)) nofun
  · exact exec_slipDec_failedInto hs ho (event (decScan_overflow v rest rfl hfull.ge)) nofun

/-- What SLIP_ENC wrote can be read back, whatever the free values are (spec/20_memory.md R56). -/
theorem slipEnc_readable {b : List Byte} {ob : OutBuf} {s : State} (stamp : Nat)
    (hs : s.rxs = .done) (ho : ob.overlaps = false)
    (hfit : b.length + 2 + specialCount b ≤ ob.cap) :
    ∃ t, exec (.slipEnc b ob) s = .next t ∧ t.rxs = .done ∧ t.status = .ok ∧
      Memory.bytes stamp t.out t.count = slipFrame b := by
  obtain ⟨p, c, henc⟩ := (slipEncResult b ob s hs ho).1 hfit
  refine ⟨_, henc, hs, rfl, ?_⟩
  simp only [← slipFrame_length, Memory.bytes_ofBytes]

/-- Settles O6: the bytes read back are the frame, whose first delimiter is skipped. -/
theorem slipRoundTrip : Obligations.SlipRoundTrip := by
  intro b c1 c2 stamp s hs hne hc1 hc2
  obtain ⟨t, henc, hidle, hok, hread⟩ :=
    slipEnc_readable (ob := { cap := c1, overlaps := false }) stamp hs rfl hc1
  obtain ⟨e, p, c, hdec⟩ := slipDecFrame 1 b [] { cap := c2, overlaps := false } t hidle rfl
    (List.length_pos_iff.mp hne) hc2
  rw [← slipFrame_eq, ← hread] at hdec
  exact ⟨t, _, henc, hok, hdec, rfl, rfl, rfl⟩

/-! The form of a line (R135 to R140). -/

/-- Every input begins with all its leading delimiters. -/
theorem exists_delims (input : List Byte) :
    ∃ k rest, input = delims k ++ rest ∧ ∀ r, rest ≠ 0xC0#8 :: r := by
  induction input with
  | nil => exact ⟨0, [], rfl, nofun⟩
  | cons b bs ih =>
    by_cases hEnd : b = 0xC0#8
    · obtain ⟨k, rest, rfl, hrest⟩ := ih
      exact ⟨k + 1, rest, by rw [hEnd]; rfl, hrest⟩
    · exact ⟨0, b :: bs, rfl, fun r h => hEnd (List.cons.inj h).1⟩

/-- The form of a line behind its leading delimiters, for an output of `cap` bytes: a body that
fits, and what stops the decoder. -/
inductive BodyLine (cap : Nat) : List Byte → Prop
  | frame (b rest : List Byte) (hc : b.length ≤ cap) : BodyLine cap (stuffed b ++ 0xC0#8 :: rest)
  | unfinished (b tail : List Byte) (hc : b.length ≤ cap) (ht : tail = [] ∨ tail = [0xDB#8]) :
    BodyLine cap (stuffed b ++ tail)
  | badEscape (b : List Byte) (x : Byte) (rest : List Byte) (hc : b.length ≤ cap)
    (hEnd : x ≠ 0xDC#8) (hEsc : x ≠ 0xDD#8) : BodyLine cap (stuffed b ++ 0xDB#8 :: x :: rest)
  | overflow (b : List Byte) (v : Byte) (rest : List Byte) (hc : b.length = cap) :
    BodyLine cap (stuffed b ++ (stuffed [v] ++ rest))

/-- One more data byte in front needs one more byte of output. -/
theorem BodyLine.cons {cap : Nat} {line : List Byte} (v : Byte) (h : BodyLine cap line) :
    BodyLine (cap + 1) (stuffed [v] ++ line) := by
  have prepend (b tail : List Byte) :
      stuffed [v] ++ (stuffed b ++ tail) = stuffed (v :: b) ++ tail := by
    rw [← List.append_assoc, ← stuffed_append]
    rfl
  cases h <;> rw [prepend]
  case frame b rest hc => exact .frame (v :: b) rest (Nat.succ_le_succ hc)
  case unfinished b tail hc ht => exact .unfinished (v :: b) tail (Nat.succ_le_succ hc) ht
  case badEscape b x rest hc hEnd hEsc =>
    exact .badEscape (v :: b) x rest (Nat.succ_le_succ hc) hEnd hEsc
  case overflow b w rest hc => exact .overflow (v :: b) w rest (congrArg (· + 1) hc)

/-- By the class of its first byte (spec/30_encoding.md R84) a line begins with the symbol of a data
byte, or its body is empty whatever the capacity. -/
theorem emptyBody_or_symbol (line : List Byte) :
    (∀ cap, BodyLine cap line) ∨ ∃ v rest, line = stuffed [v] ++ rest := by
  rcases line with _ | ⟨b, rest⟩
  · exact .inl fun cap => .unfinished [] [] cap.zero_le (.inl rfl)
  by_cases hEnd : b = 0xC0#8
  · exact .inl fun cap => hEnd ▸ .frame [] rest cap.zero_le
  by_cases hEsc : b = 0xDB#8
  · subst hEsc
    rcases rest with _ | ⟨x, rest⟩
    · exact .inl fun cap => .unfinished [] _ cap.zero_le (.inr rfl)
    by_cases hx : x = 0xDC#8
    · exact .inr ⟨0xC0#8, rest, hx ▸ rfl⟩
    by_cases hx' : x = 0xDD#8
    · exact .inr ⟨0xDB#8, rest, hx' ▸ rfl⟩
    exact .inl fun cap => .badEscape [] x rest cap.zero_le hx hx'
  · exact .inr ⟨b, rest, by rw [stuffed_cons_plain [] hEnd hEsc]; rfl⟩

/-- Every line has one of these forms. -/
theorem bodyLine (cap : Nat) (line : List Byte) : BodyLine cap line := by
  induction cap generalizing line with
  | zero =>
    obtain h | ⟨v, rest, rfl⟩ := emptyBody_or_symbol line
    · exact h 0
    · exact .overflow [] v rest rfl
  | succ cap ih =>
    obtain h | ⟨v, rest, rfl⟩ := emptyBody_or_symbol line
    · exact h (cap + 1)
    · exact (ih rest).cons v

/-- Settles O5: each form of the line is decoded by `slipDecFrame` or `slipDecOtherEnds`. -/
theorem slipDecClassifies : Obligations.SlipDecClassifies := by
  intro input ob s hs ho
  obtain ⟨k, line, rfl, hline⟩ := exists_delims input
  cases bodyLine ob.cap line <;> rw [← List.append_assoc]
  case frame b rest hc =>
    have hne : b ≠ [] := by
      rintro rfl
      exact hline rest rfl
    obtain ⟨e, p, c, h⟩ := slipDecFrame k b rest ob s hs ho hne hc
    exact ⟨_, h, .inl ⟨rfl, k, b, rest, hne, hc, rfl, rfl, rfl⟩⟩
  case unfinished b tail hc ht =>
    obtain ⟨t, e, p, c, h, hfail⟩ := (slipDecOtherEnds k b ob s hs ho hc).1 tail ht
    refine ⟨t, h, .inr (.inl ⟨hfail.status_eq, k, b, hc, ?_⟩)⟩
    rcases ht with rfl | rfl
    · exact .inl (List.append_nil _)
    · exact .inr rfl
  case badEscape b x rest hc hEnd hEsc =>
    obtain ⟨t, e, p, c, h, hfail⟩ := (slipDecOtherEnds k b ob s hs ho hc).2.1 x rest hEnd hEsc
    exact ⟨t, h, .inr (.inr (.inl ⟨hfail.status_eq, k, b, x, rest, hc, hEnd, hEsc, rfl⟩))⟩
  case overflow b v rest hc =>
    obtain ⟨t, e, p, c, h, hfail⟩ := (slipDecOtherEnds k b ob s hs ho hc.le).2.2 v rest hc
    exact ⟨t, h, .inr (.inr (.inr ⟨hfail.status_eq, k, b, v, rest, hc, rfl⟩))⟩

/-! SLIP_DEC on a growing input (R142). -/

/-- A scan that ended does not see what follows. -/
theorem slipDecode_append_ended {cap : Nat} {p : List Byte} (q : List Byte)
    (h : (slipDecode cap p).2 ≠ .more) : slipDecode cap (p ++ q) = slipDecode cap p := by
  simp only [slipDecode] at h ⊢
  rw [decScan_append]
  split
  · rename_i d heq
    exact absurd (congrArg Prod.snd heq) h
  · rfl

/-- After an unfinished scan one more byte is one more iteration. -/
theorem slipDecode_append_more {cap : Nat} {p : List Byte} {d : Dec} (x : Byte)
    (h : slipDecode cap p = (d, .more)) : slipDecode cap (p ++ [x]) = decFeed cap d x := by
  simp only [slipDecode] at h ⊢
  rw [decScan_append, h]
  simp only [decScan]
  split
  · rename_i heq
    exact heq.symm
  · rfl

/-- An iteration has the event of its step. -/
theorem decFeed_event (cap : Nat) (d : Dec) (b : Byte) :
    (decFeed cap d b).2 = (decStep cap d b).2 := by
  unfold decFeed
  split
  · rename_i heq
    rw [heq]
  · rfl

theorem decPut_ne_frame (cap : Nat) (v : Byte) (d : Dec) (n : Nat) :
    (decPut cap v d).2 ≠ .frame n := by
  unfold decPut
  split <;> nofun

/-- A step completes a frame only in the second row of its table, which changes no register
(R134). -/
theorem decStep_frame_or (cap : Nat) (d : Dec) (b : Byte) :
    decStep cap d b = (d, .frame d.pos) ∨ ∀ n, (decStep cap d b).2 ≠ .frame n := by
  unfold decStep
  split
  · right
    split
    · exact decPut_ne_frame _ _ _
    split
    · exact decPut_ne_frame _ _ _
    · nofun
  split
  · split
    · exact .inr nofun
    · exact .inl rfl
  split
  · exact .inr nofun
  · exact .inr (decPut_ne_frame _ _ _)

/-- An iteration that completes a frame changes no register: the cursor stays (R135). -/
theorem decFeed_of_frame {cap n : Nat} {d : Dec} {b : Byte}
    (h : (decStep cap d b).2 = .frame n) : decFeed cap d b = (d, .frame n) := by
  obtain hstep | hne := decStep_frame_or cap d b
  · rw [hstep] at h
    rw [decFeed, hstep, ← h]
  · exact absurd h (hne n)

/-- Settles O7. -/
theorem slipDecGrowingInput : Obligations.SlipDecGrowingInput := by
  refine ⟨fun p q ob s t h hst => ?_, fun p x ob s d hs ho h => ?_⟩
  · obtain ⟨ho, hs, rfl⟩ := exec_slipDec_eq_next.mp h
    have hended : (slipDecode ob.cap p).2 ≠ .more := fun hmore =>
      hst (by rw [slipDecOp_status, hmore]; rfl)
    have same : slipDecOp (p ++ q) ob.cap s = slipDecOp p ob.cap s := by
      rw [slipDecOp, slipDecode_append_ended q hended, ← slipDecOp]
    exact ⟨_, exec_slipDec_idle _ hs ho, by rw [same], fun _ => by rw [same]; exact ⟨rfl, rfl⟩⟩
  · have hfeed := slipDecode_append_more x h
    refine ⟨_, exec_slipDec_idle _ hs ho, ?_, fun n hn => ?_⟩
    · rw [slipDecOp_status, hfeed, decFeed_event]
    · rw [slipDecOp_frame s (hfeed.trans (decFeed_of_frame hn))]
      exact ⟨rfl, rfl⟩

end Sys2Proof.Machine
end

section
/-! PROOFS. The checksum family (spec/41_checksum.md). The closed sum of R150 is the model's word
sum; the value a field must hold to make its input verify is the complement of the sum around it;
the four built layouts are inputs with such a field at an even index. -/

namespace Sys2Proof.Machine

/-! The sum of the words (R150, R151). -/

theorem wordAt_cons_zero (a b : Byte) (bs : List Byte) :
    wordAt (a :: b :: bs) 0 = a.toNat * 256 + b.toNat := by
  simp [wordAt]

/-- The words after the first are those of the rest. -/
theorem wordAt_cons_succ (a b : Byte) (bs : List Byte) (k : Nat) :
    wordAt (a :: b :: bs) (k + 1) = wordAt bs k := by
  have hpadded : 2 * k + 2 ≤ bs.length ↔ 2 * k + 1 < bs.length := Iff.rfl
  simp [wordAt, Nat.mul_add, hpadded]

theorem wordTotal_pair (a b : Byte) (bs : List Byte) :
    wordTotal (a :: b :: bs) = a.toNat * 256 + b.toNat + wordTotal bs := by
  have hcount : ((a :: b :: bs).length + 1) / 2 = (bs.length + 1) / 2 + 1 := by
    simp only [List.length_cons]
    omega
  have hrest : wordAt (a :: b :: bs) ∘ Nat.succ = wordAt bs :=
    funext (wordAt_cons_succ a b bs)
  rw [wordTotal, hcount, List.range_succ_eq_map, List.map_cons, List.map_map, List.sum_cons,
    wordAt_cons_zero, hrest, wordTotal]

/-- The sum over the indices of R150 is the sum the model's recursion computes. -/
theorem wordTotal_eq (input : List Byte) : wordTotal input = wordSum input := by
  induction input using wordSum.induct with
  | case1 => rfl
  | case2 a => simp [wordTotal, wordAt, wordSum]
  | case3 a b bs ih => rw [wordTotal_pair, wordSum_pair, ih]

/-- The sum of a sequence of words is the sum of their values. -/
theorem wordSum_flatMap_be16 (ws : List U16) :
    wordSum (ws.flatMap be16) = (ws.map BitVec.toNat).sum := by
  induction ws with
  | nil => rfl
  | cons w ws ih =>
    rw [List.flatMap_cons, wordSum_append _ (by simp), wordSum_be16, ih, List.map_cons,
      List.sum_cons]

/-- A zero byte after an odd trailing byte is the padding of R151. -/
theorem wordSum_append_zero {d : List Byte} (h : d.length % 2 = 1) :
    wordSum (d ++ [0x00#8]) = wordSum d := by
  induction d using wordSum.induct with
  | case1 => simp at h
  | case2 a => simp [wordSum]
  | case3 a b d ih =>
    simp only [List.length_cons] at h
    simp [ih (by omega)]

/-- A word field at an even index adds its value to the sum of what stands around it. -/
theorem wordSum_field {before : List Byte} (v : U16) (after : List Byte)
    (h : before.length % 2 = 0) :
    wordSum (before ++ be16 v ++ after) = wordSum before + v.toNat + wordSum after := by
  rw [wordSum_append _ (by simp; omega), wordSum_append _ h, wordSum_be16]

/-! The checksum (R152, R153). -/

/-- Only the sum of the words reaches the checksum. -/
theorem csum_congr {d d' : List Byte} (h : wordSum d = wordSum d') : csum d = csum d' := by
  rw [csum, csum, csumSum_eq, csumSum_eq, h]

/-- A folded sum of 0xFFFF is what verification looks for (R155). -/
theorem csum_eq_zero {d : List Byte} (h : csumSum d = 0xFFFF) : csum d = 0x0000#16 := by
  rw [csum, h]
  rfl

/-- A total and the complement of its folded value add up to a non-zero multiple of 0xFFFF. -/
theorem foldedValue_add_complement (n : Nat) :
    foldedValue (n + (0xFFFF - foldedValue n)) = 0xFFFF := by
  have hmultiple : (n + (0xFFFF - foldedValue n)) % 0xFFFF = 0 ∧
      n + (0xFFFF - foldedValue n) ≠ 0 := by
    unfold foldedValue
    split <;> omega
  rw [foldedValue, if_pos hmultiple]

/-- The idea of R155: written into its own zero field, the checksum completes the sum. -/
theorem csumSum_patched {before : List Byte} (after : List Byte) (h : before.length % 2 = 0) :
    csumSum (before ++ be16 (csum (before ++ be16 0x0000#16 ++ after)) ++ after) = 0xFFFF := by
  have hzero : wordSum (before ++ be16 0x0000#16 ++ after) = wordSum before + wordSum after :=
    wordSum_field _ _ h
  rw [csumSum_eq, wordSum_field _ _ h, csum_toNat, hzero, Nat.add_right_comm]
  exact foldedValue_add_complement _

theorem csum_patched {before : List Byte} (after : List Byte) (h : before.length % 2 = 0) :
    csum (before ++ be16 (csum (before ++ be16 0x0000#16 ++ after)) ++ after) = 0x0000#16 :=
  csum_eq_zero (csumSum_patched after h)

/-- The same with a pseudo-header before the part that holds the field (R154). -/
theorem csum_patched_after {pseudo before : List Byte} (after : List Byte)
    (hp : pseudo.length % 2 = 0) (h : before.length % 2 = 0) :
    csum (pseudo ++
      (before ++ be16 (csum (pseudo ++ (before ++ be16 0x0000#16 ++ after))) ++ after)) =
      0x0000#16 := by
  simpa only [List.append_assoc] using
    csum_patched (before := pseudo ++ before) after (by rw [List.length_append]; omega)

/-! CSUM (R150). -/

theorem exec_csum_idle (input : List Byte) {s : State} (hs : s.rxs = .done) :
    exec (.csum input) s = .next
      (({ s with sum := csumSum input } : State).complete 0 (.checksum (csum input))) :=
  State.issue_idle hs _

/-- Settles O8. -/
theorem csumResult : Obligations.CsumResult := by
  intro input s hs
  have hvalue : csum input = BitVec.ofNat 16 (0xFFFF - foldedValue (wordTotal input)) := by
    rw [wordTotal_eq, ← csum_toNat, BitVec.ofNat_toNat, BitVec.setWidth_eq]
  exact ⟨0, csumSum input, hvalue ▸ exec_csum_idle input hs⟩

/-- Settles O9. -/
theorem checksumFieldVerifies : Obligations.ChecksumFieldVerifies := by
  intro before after s t c hs heven hrun hc
  rw [exec_csum_idle _ hs] at hrun
  obtain rfl := Host.Outcome.next.inj hrun
  obtain rfl := Result.checksum.inj hc
  exact ⟨csumSum_patched after heven, _, exec_csum_idle _ hs, rfl,
    congrArg Result.checksum (csum_patched after heven)⟩

/-- Settles O10. -/
theorem checksumWordOrder : Obligations.ChecksumWordOrder := by
  refine ⟨fun ws ws' hperm => csum_congr ?_, fun p d hp => ?_,
    fun d hd => csum_congr (wordSum_append_zero hd), fun d hd => csum_congr ?_⟩
  · rw [wordSum_flatMap_be16, wordSum_flatMap_be16]
    exact (hperm.map _).sum_eq
  · rw [csum_toNat, wordSum_append d hp, wordTotal_eq, wordTotal_eq]
  · exact wordSum_append _ hd

/-! UDP_CSUM (spec/44_udp.md R194, R195). -/

/-- Patching writes the word over the two bytes at the index (spec/20_memory.md R57). -/
theorem patch16_eq {bs : List Byte} {i : Nat} (v : U16) (h : i + 2 ≤ bs.length) :
    patch16 bs i v = bs.take i ++ be16 v ++ bs.drop (i + 2) := by
  induction bs generalizing i with
  | nil => simp at h
  | cons b bs ih =>
    cases i with
    | zero =>
      obtain ⟨b', rest, rfl⟩ := List.exists_cons_of_length_pos (Nat.lt_of_succ_lt_succ h)
      rfl
    | succ i => exact congrArg (b :: ·) (ih (Nat.le_of_succ_le_succ h))

/-- The second of two patches at the same index is the one that stays. -/
theorem patch16_patch16 (bs : List Byte) (i : Nat) (v w : U16) :
    patch16 (patch16 bs i v) i w = patch16 bs i w := by
  simp [patch16, List.set_comm]

/-- The checksum UDP_CSUM writes into a datagram. -/
def udpChecksum (srcIp dstIp : IP4) (dgram : List Byte) : U16 :=
  csum (pseudoBytes srcIp dstIp 17#8 dgram.length ++
    (dgram.take 6 ++ be16 0x0000#16 ++ dgram.drop 8))

/-- UDP_CSUM's algorithm when both length tests are passed. -/
theorem udpCsumBytes_ok (srcIp dstIp : IP4) {dgram : List Byte} (hmin : 8 ≤ dgram.length)
    (hmax : dgram.length ≤ 65535) :
    udpCsumBytes srcIp dstIp dgram = .ok (udpChecksum srcIp dstIp dgram,
      { bytes := dgram.take 6 ++ be16 (udpChecksum srcIp dstIp dgram) ++ dgram.drop 8,
        sum := csumSum (udpCsumInput srcIp dstIp dgram) }) := by
  have hc : csum (udpCsumInput srcIp dstIp dgram) = udpChecksum srcIp dstIp dgram := by
    rw [udpCsumInput, patch16_eq _ hmin]
    rfl
  have hbytes (c : U16) : patch16 (patch16 dgram 6 0x0000#16) 6 c =
      dgram.take 6 ++ be16 c ++ dgram.drop 8 := by
    rw [patch16_patch16, patch16_eq c hmin]
  simp only [udpCsumBytes, if_neg (Nat.not_lt.mpr hmin), if_neg (Nat.not_lt.mpr hmax), hc, hbytes]

theorem exec_udpCsum_idle (srcIp dstIp : IP4) {dgram : List Byte} {s : State}
    (hs : s.rxs = .done) (hmin : 8 ≤ dgram.length) (hmax : dgram.length ≤ 65535) :
    exec (.udpCsum srcIp dstIp dgram) s = .next
      (({ s with sum := csumSum (udpCsumInput srcIp dstIp dgram) } : State).completeInto
        (dgram.take 6 ++ be16 (udpChecksum srcIp dstIp dgram) ++ dgram.drop 8)
        (.checksum (udpChecksum srcIp dstIp dgram))) := by
  change s.issue _ = _
  rw [State.issue_idle hs, udpCsumBytes_ok srcIp dstIp hmin hmax]

/-! The four fields of R154. -/

@[simp] theorem length_pseudoBytes (srcIp dstIp : IP4) (protocol : Byte) (len : Nat) :
    (pseudoBytes srcIp dstIp protocol len).length = 12 := rfl

/-- IP_BUILD's field stands at index 10 of the header, which the payload follows (R85). -/
theorem csum_ipPacket (cfg : Config.Params) (src dst : IP4) (protocol : Byte)
    (payload : List Byte) :
    csum ((ipPacket cfg src dst protocol payload).take 20) = 0x0000#16 := by
  rw [ipPacket, List.take_left' (by simp [ipHeaderBytes])]
  exact csum_patched (before := [0x45#8, 0x00#8] ++ be16 (BitVec.ofNat 16 (20 + payload.length)) ++
    be16 cfg.ipId ++ [0x40#8, 0x00#8] ++ [0x40#8, protocol]) (src.bytes ++ dst.bytes) (by simp)

/-- ICMP_BUILD's field stands at index 2 (R89). -/
theorem csum_icmpMessage (type : Byte) (identifier sequence : U16) (payload : List Byte) :
    csum (icmpMessage type identifier sequence payload) = 0x0000#16 :=
  csum_patched (before := [type, 0x00#8]) (be16 identifier ++ be16 sequence ++ payload) (by simp)

/-- TCP_BUILD's field stands at index 16, after the pseudo-header's 12 bytes (R92, R95). -/
theorem csum_tcpSegment (d : SegDesc) :
    csum (pseudoBytes d.srcIp d.dstIp 6#8 (20 + d.payload.length) ++ tcpSegment d) = 0x0000#16 :=
  csum_patched_after (before := be16 d.srcPort ++ be16 d.dstPort ++ be32 d.seq ++ be32 d.ack ++
    be16 (0x5000#16 ||| d.flags.setWidth 16) ++ be16 d.window) ([0x00#8, 0x00#8] ++ d.payload)
    (by simp) (by simp)

/-- Settles O11. -/
theorem builtChecksumsVerify : Obligations.BuiltChecksumsVerify := by
  refine ⟨csum_ipPacket, csum_icmpMessage, csum_tcpSegment, ?_⟩
  intro srcIp dstIp dgram s hs hmin hmax
  refine ⟨_, _, exec_udpCsum_idle srcIp dstIp hs hmin hmax, rfl, ?_⟩
  have htake : (dgram.take 6).length % 2 = 0 := by
    rw [List.length_take, Nat.min_eq_left (by omega)]
  exact csum_patched_after _ (by simp) htake

end Sys2Proof.Machine
end

section
/-! PROOFS. The IPv4 family (spec/42_ipv4.md): each operation's algorithm has one answer for every
outcome of its tests, and the instruction ends as its algorithm answers. -/

namespace Sys2Proof.Machine

/-! How an operation ends on its algorithm's answer. -/

theorem State.failed_raise (s : State) (st : Status) : s.failed (s.raise st) st :=
  ⟨_, _, _, rfl⟩

/-- A building operation whose algorithm fails has no other effect. -/
theorem State.failedInto_finishBuild (s : State) (st : Status) :
    s.failedInto (s.finishBuild (.error st)) st :=
  ⟨_, _, _, _, rfl⟩

/-! IP_BUILD (R160 to R163). -/

theorem exec_ipBuild_idle (src dst : IP4) (protocol : Byte) (payload : List Byte) {ob : OutBuf}
    {s : State} (hs : s.rxs = .done) (ho : ob.overlaps = false) :
    exec (.ipBuild src dst protocol payload ob) s =
      .next (s.finishBuild (ipBuildBytes s.cfg src dst protocol payload ob.cap)) :=
  State.issueInto_idle hs ho _

theorem exec_ipBuild_failedInto {src dst : IP4} {protocol : Byte} {payload : List Byte}
    {ob : OutBuf} {s : State} {st : Status} (hs : s.rxs = .done) (ho : ob.overlaps = false)
    (h : ipBuildBytes s.cfg src dst protocol payload ob.cap = .error st) :
    ∃ t, exec (.ipBuild src dst protocol payload ob) s = .next t ∧ s.failedInto t st :=
  ⟨_, exec_ipBuild_idle src dst protocol payload hs ho, h ▸ s.failedInto_finishBuild st⟩

/-- Settles O12: the two length tests of R162 decide, in their order. -/
theorem ipBuildResult : Obligations.IpBuildResult := by
  intro src dst protocol payload ob s hs ho
  refine ⟨fun hrange hfit => ?_, fun hlong => ?_, fun hrange hfull => ?_⟩
  · have hlen := length_ipPacket s.cfg src dst protocol payload
    rw [exec_ipBuild_idle src dst protocol payload hs ho, ipBuildBytes_eq,
      if_neg (Nat.not_lt.mpr hrange), if_neg (Nat.not_lt.mpr hfit), ← hlen]
    exact ⟨_, rfl⟩
  · exact exec_ipBuild_failedInto hs ho (by rw [ipBuildBytes_eq, if_pos hlong])
  · exact exec_ipBuild_failedInto hs ho
      (by rw [ipBuildBytes_eq, if_neg (Nat.not_lt.mpr hrange), if_pos hfull])

/-! IP_PARSE (R164 to R169). -/

theorem exec_ipParse_failed {input : List Byte} {s : State} {st : Status} (hs : s.rxs = .done)
    (h : ipParseBytes s.cfg input = .error st) :
    ∃ t, exec (.ipParse input) s = .next t ∧ s.failed t st := by
  refine ⟨s.raise st, ?_, s.failed_raise st⟩
  change s.issue _ = _
  rw [State.issue_idle hs, h]

theorem ipParseBytes_tooShort (cfg : Config.Params) {input : List Byte} (h : input.length < 20) :
    ipParseBytes cfg input = .error .tooShort := if_pos h

/-- The header length is tested always (R165), the total length only under IP_CHECK_TOTAL_LENGTH
(R169); both failures are the same. -/
theorem ipParseBytes_badLength {cfg : Config.Params} {input : List Byte} (hmin : 20 ≤ input.length)
    (h : input.length < ipHeaderLen input ∨
      cfg.ipCheckTotalLength = true ∧ input.length < (getBE16 input 2).toNat) :
    ipParseBytes cfg input = .error .badLength := by
  rw [ipParseBytes, if_neg (Nat.not_lt.mpr hmin)]
  by_cases hhdr : input.length < ipHeaderLen input
  · rw [if_pos hhdr]
  · rw [if_neg hhdr, if_pos (by simpa using h.resolve_left hhdr)]

/-- The total length of a packet that passes matters only when it is tested (R166, R169). -/
theorem ipParseBytes_passed {cfg : Config.Params} {input : List Byte} (hmin : 20 ≤ input.length)
    (hhdr : ipHeaderLen input ≤ input.length)
    (htotal : cfg.ipCheckTotalLength = true → (getBE16 input 2).toNat ≤ input.length) :
    ipParseBytes cfg input = .ok (ipHdrOf input,
      { offset := ipHeaderLen input, length := input.length - ipHeaderLen input }) := by
  rw [ipParseBytes, if_neg (Nat.not_lt.mpr hmin), if_neg (Nat.not_lt.mpr hhdr),
    if_neg (by simpa using htotal)]

/-- The low nibble of a byte is what the mask of R97 leaves. -/
theorem lowNibble_toNat (b : Byte) : (b.extractLsb' 0 4).toNat = (b &&& 0x0F#8).toNat := by
  rw [BitVec.extractLsb'_toNat, BitVec.toNat_and]
  exact (Nat.and_two_pow_sub_one_eq_mod b.toNat 4).symm

theorem lowNibble_eq (b : Byte) : b.extractLsb' 0 4 = (b &&& 0x0F#8).setWidth 4 := by
  apply BitVec.eq_of_toNat_eq
  rw [BitVec.toNat_setWidth, ← lowNibble_toNat, Nat.mod_eq_of_lt (BitVec.isLt _)]

theorem highNibble_eq (b : Byte) : b.extractLsb' 4 4 = (b >>> 4).setWidth 4 := rfl

theorem ipHeaderLen_eq (input : List Byte) :
    ipHeaderLen input = (byteAt input 0 &&& 0x0F#8).toNat * 4 := by
  rw [ipHeaderLen, lowNibble_toNat]

/-- Settles O13: each clause is one outcome of the tests of R165 and R169. -/
theorem ipParseResult : Obligations.IpParseResult := by
  intro input s hs
  rw [← ipHeaderLen_eq, ← lowNibble_eq, ← highNibble_eq]
  refine ⟨fun hshort => exec_ipParse_failed hs (ipParseBytes_tooShort s.cfg hshort), fun hmin =>
    ⟨fun hhdr => ?_, fun hcheck htotal => ?_, fun hhdr htotal => ⟨0, ?_⟩⟩⟩
  · exact exec_ipParse_failed hs (ipParseBytes_badLength hmin (.inl hhdr))
  · exact exec_ipParse_failed hs (ipParseBytes_badLength hmin (.inr ⟨hcheck, htotal⟩))
  · exact exec_ipParse_ok hs (ipParseBytes_passed hmin hhdr htotal)

end Sys2Proof.Machine
end

section
/-! PROOFS. The ICMP family (spec/43_icmp.md): ICMP_BUILD and ICMP_PARSE each turn on one length
test; ECHO_REPLY sends what its three steps build, or stops at the first that fails. -/

namespace Sys2Proof.Machine

/-! ICMP_BUILD (R180 to R182). -/

theorem exec_icmpBuild_idle (type : Byte) (identifier sequence : U16) (payload : List Byte)
    {ob : OutBuf} {s : State} (hs : s.rxs = .done) (ho : ob.overlaps = false) :
    exec (.icmpBuild type identifier sequence payload ob) s =
      .next (s.finishBuild (icmpBuildBytes type identifier sequence payload ob.cap)) :=
  State.issueInto_idle hs ho _

theorem icmpBuildBytes_ok (type : Byte) (identifier sequence : U16) {payload : List Byte}
    {cap : Nat} (h : 8 + payload.length ≤ cap) :
    icmpBuildBytes type identifier sequence payload cap =
      .ok { bytes := icmpMessage type identifier sequence payload,
            sum := csumSum (icmpMessageZero type identifier sequence payload) } := by
  rw [icmpBuildBytes_eq, if_neg (Nat.not_lt.mpr h)]

theorem icmpBuildBytes_overflow (type : Byte) (identifier sequence : U16) {payload : List Byte}
    {cap : Nat} (h : cap < 8 + payload.length) :
    icmpBuildBytes type identifier sequence payload cap = .error .outOverflow := if_pos h

/-- Settles O15: the one length test of R182 decides. -/
theorem icmpBuildResult : Obligations.IcmpBuildResult := by
  intro type identifier sequence payload ob s hs ho
  rw [exec_icmpBuild_idle type identifier sequence payload hs ho]
  refine ⟨fun hfit => ?_, fun hfull => ?_⟩
  · rw [icmpBuildBytes_ok type identifier sequence hfit,
      ← length_icmpMessage type identifier sequence payload]
    exact ⟨_, rfl⟩
  · rw [icmpBuildBytes_overflow type identifier sequence hfull]
    exact ⟨_, rfl, s.failedInto_finishBuild _⟩

/-! ICMP_PARSE (R183, R184). -/

theorem icmpParseBytes_tooShort {input : List Byte} (h : input.length < 8) :
    icmpParseBytes input = .error .tooShort := if_pos h

theorem icmpParseBytes_ok {input : List Byte} (h : 8 ≤ input.length) :
    icmpParseBytes input = .ok (icmpHdrOf input, { offset := 8, length := input.length - 8 }) :=
  if_neg (Nat.not_lt.mpr h)

theorem exec_icmpParse_failed {input : List Byte} {s : State} {st : Status} (hs : s.rxs = .done)
    (h : icmpParseBytes input = .error st) :
    ∃ t, exec (.icmpParse input) s = .next t ∧ s.failed t st := by
  refine ⟨s.raise st, ?_, s.failed_raise st⟩
  change s.issue _ = _
  rw [State.issue_idle hs, h]

/-- Settles O16: the one length test of R184 decides. -/
theorem icmpParseResult : Obligations.IcmpParseResult := fun _ _ hs =>
  ⟨fun hshort => exec_icmpParse_failed hs (icmpParseBytes_tooShort hshort),
    fun hmin => ⟨0, exec_icmpParse_ok hs (icmpParseBytes_ok hmin)⟩⟩

/-! ECHO_REPLY (R186). -/

section
variable {src dst : IP4} {identifier sequence : U16} {payload : List Byte} {s : State}

/-- Once the message is built, the rest of the expansion is IP_BUILD and TX_FRAME. -/
theorem echoReply_built (h : 8 + payload.length ≤ s.cfg.segCap) :
    echoReply src dst identifier sequence payload s =
      sendPacket dst src 1#8
        { bytes := icmpMessage 0#8 identifier sequence payload,
          sum := csumSum (icmpMessageZero 0#8 identifier sequence payload) } s := by
  rw [echoReply, icmpBuildBytes_ok _ identifier sequence h]
  rfl

/-- None of the three steps fails: the frame is sent. -/
theorem echoReply_ok (h : echoFits s.cfg src dst identifier sequence payload) :
    ∃ w n, s.sameButSending w ∧ echoReply src dst identifier sequence payload s =
      ({ w with
        txLine := s.txLine ++ slipFrame (echoPacket s.cfg src dst identifier sequence payload) },
        .ok n) := by
  obtain ⟨hmessage, hpacket, hframe⟩ := h
  rw [echoReply_built hmessage]
  exact sendPacket_ok (by rwa [length_icmpMessage]) hframe

/-- One of the three steps fails: nothing is sent, whichever it is. -/
theorem echoReply_error (h : ¬ echoFits s.cfg src dst identifier sequence payload) :
    ∃ w st, s.sameButSending w ∧ st ≠ .ok ∧
      echoReply src dst identifier sequence payload s = (w, .error st) := by
  by_cases hmessage : 8 + payload.length ≤ s.cfg.segCap
  · rw [echoReply_built hmessage]
    refine sendPacket_error fun ⟨hpacket, hframe⟩ => h ⟨hmessage, ?_, hframe⟩
    rwa [length_icmpMessage] at hpacket
  · refine ⟨s, .outOverflow, .refl s, nofun, ?_⟩
    rw [echoReply, icmpBuildBytes_overflow _ identifier sequence (Nat.lt_of_not_le hmessage)]

theorem exec_echoReply_idle (hs : s.rxs = .done) :
    exec (.echoReply src dst identifier sequence payload) s =
      .next (finishSend (echoReply src dst identifier sequence payload s)) :=
  State.issue_idle hs _

end

/-- Settles O39: the operation ends as its expansion answers. -/
theorem echoReplyResult : Obligations.EchoReplyResult := by
  intro src dst identifier sequence payload s hs
  rw [exec_echoReply_idle hs]
  refine ⟨fun hfits => ?_, fun hfails => ?_⟩
  · obtain ⟨w, n, hw, hsent⟩ := echoReply_ok hfits
    rw [hsent]
    exact ⟨w, n, hw, rfl⟩
  · obtain ⟨w, st, hw, hst, hfailed⟩ := echoReply_error hfails
    rw [hfailed]
    exact ⟨w, w.raise st, st, hw, hst, rfl, w.failed_raise st⟩

end Sys2Proof.Machine
end

section
/-! PROOFS. The UDP family (spec/44_udp.md): each algorithm has one answer for every outcome of its
length tests, in their order, and the instruction ends as its algorithm answers. -/

namespace Sys2Proof.Machine

theorem State.failedInto_raiseInto (s : State) (st : Status) : s.failedInto (s.raiseInto st) st :=
  ⟨_, _, _, _, rfl⟩

/-! UDP_BUILD (R190, R191). -/

@[simp] theorem length_udpBytes (srcPort dstPort : U16) (payload : List Byte) (ck : U16) :
    (udpBytes srcPort dstPort payload ck).length = 8 + payload.length := by
  simp only [udpBytes, List.length_append, length_be16]

/-- UDP_BUILD's algorithm against the layout of R91: the two length tests of R191, in their order. -/
theorem udpBuildBytes_eq (srcPort dstPort : U16) (payload : List Byte) (cap : Nat) :
    udpBuildBytes srcPort dstPort payload cap =
      if 65535 < 8 + payload.length then .error .lenRange
      else if cap < 8 + payload.length then .error .outOverflow
      else .ok (udpBytes srcPort dstPort payload 0x0000#16) := rfl

section
variable {srcPort dstPort : U16} {payload : List Byte} {ob : OutBuf} {s : State}

theorem exec_udpBuild_ok (srcIp dstIp : IP4) {bs : List Byte} (hs : s.rxs = .done)
    (ho : ob.overlaps = false) (h : udpBuildBytes srcPort dstPort payload ob.cap = .ok bs) :
    exec (.udpBuild srcIp dstIp srcPort dstPort payload ob) s =
      .next (s.completeInto bs .counted) := by
  change s.issueInto ob _ = _
  rw [State.issueInto_idle hs ho, h]

theorem exec_udpBuild_failedInto (srcIp dstIp : IP4) {st : Status} (hs : s.rxs = .done)
    (ho : ob.overlaps = false) (h : udpBuildBytes srcPort dstPort payload ob.cap = .error st) :
    ∃ t, exec (.udpBuild srcIp dstIp srcPort dstPort payload ob) s = .next t ∧
      s.failedInto t st := by
  refine ⟨s.raiseInto st, ?_, s.failedInto_raiseInto st⟩
  change s.issueInto ob _ = _
  rw [State.issueInto_idle hs ho, h]

end

/-- Settles O17: the two length tests of R191 decide, in their order. -/
theorem udpBuildResult : Obligations.UdpBuildResult := by
  intro srcIp dstIp srcPort dstPort payload ob s hs ho
  refine ⟨fun hrange hfit => ?_, fun hlong => ?_, fun hrange hfull => ?_⟩
  · have hbuild := udpBuildBytes_eq srcPort dstPort payload ob.cap
    rw [if_neg (Nat.not_lt.mpr hrange), if_neg (Nat.not_lt.mpr hfit)] at hbuild
    rw [exec_udpBuild_ok srcIp dstIp hs ho hbuild, State.completeInto, length_udpBytes]
  · exact exec_udpBuild_failedInto srcIp dstIp hs ho (by rw [udpBuildBytes_eq, if_pos hlong])
  · exact exec_udpBuild_failedInto srcIp dstIp hs ho
      (by rw [udpBuildBytes_eq, if_neg (Nat.not_lt.mpr hrange), if_pos hfull])

/-! UDP_PARSE (R192, R193). -/

theorem exec_udpParse_failed {input : List Byte} {s : State} {st : Status} (hs : s.rxs = .done)
    (h : udpParseBytes input = .error st) :
    ∃ t, exec (.udpParse input) s = .next t ∧ s.failed t st := by
  refine ⟨s.raise st, ?_, s.failed_raise st⟩
  change s.issue _ = _
  rw [State.issue_idle hs, h]

theorem udpParseBytes_tooShort {input : List Byte} (h : input.length < 8) :
    udpParseBytes input = .error .tooShort := if_pos h

/-- A length field above the buffer and one below the header fail alike (R193). -/
theorem udpParseBytes_badLength {input : List Byte} (hmin : 8 ≤ input.length)
    (h : input.length < (getBE16 input 4).toNat ∨ (getBE16 input 4).toNat < 8) :
    udpParseBytes input = .error .badLength := by
  rw [udpParseBytes, if_neg (Nat.not_lt.mpr hmin)]
  by_cases hlong : input.length < (getBE16 input 4).toNat
  · rw [if_pos hlong]
  · rw [if_neg hlong, if_pos (h.resolve_left hlong)]

/-- UDP_PARSE's algorithm when every test is passed (R192). -/
theorem udpParseBytes_ok {input : List Byte} (hmin : 8 ≤ input.length)
    (hbuf : (getBE16 input 4).toNat ≤ input.length) (hhdr : 8 ≤ (getBE16 input 4).toNat) :
    udpParseBytes input = .ok
      ({ srcPort := getBE16 input 0, dstPort := getBE16 input 2, length := getBE16 input 4,
         checksum := getBE16 input 6 },
       { offset := 8, length := (getBE16 input 4).toNat - 8 }) := by
  rw [udpParseBytes, if_neg (Nat.not_lt.mpr hmin), if_neg (Nat.not_lt.mpr hbuf),
    if_neg (Nat.not_lt.mpr hhdr)]

/-- Settles O18: each clause is one outcome of the tests of R193. -/
theorem udpParseResult : Obligations.UdpParseResult := fun _ _ hs =>
  ⟨fun hshort => exec_udpParse_failed hs (udpParseBytes_tooShort hshort),
    fun hmin => ⟨fun hfield => exec_udpParse_failed hs (udpParseBytes_badLength hmin hfield),
      fun hbuf hhdr => ⟨0, exec_udpParse_ok hs (udpParseBytes_ok hmin hbuf hhdr)⟩⟩⟩

/-! UDP_CSUM (R194, R195). -/

theorem exec_udpCsum_failedInto {srcIp dstIp : IP4} {dgram : List Byte} {s : State} {st : Status}
    (hs : s.rxs = .done) (h : udpCsumBytes srcIp dstIp dgram = .error st) :
    ∃ t, exec (.udpCsum srcIp dstIp dgram) s = .next t ∧ s.failedInto t st := by
  refine ⟨s.raiseInto st, ?_, s.failedInto_raiseInto st⟩
  change s.issue _ = _
  rw [State.issue_idle hs, h]

theorem udpCsumBytes_tooShort (srcIp dstIp : IP4) {dgram : List Byte} (h : dgram.length < 8) :
    udpCsumBytes srcIp dstIp dgram = .error .tooShort := if_pos h

theorem udpCsumBytes_lenRange (srcIp dstIp : IP4) {dgram : List Byte}
    (h : 65535 < dgram.length) : udpCsumBytes srcIp dstIp dgram = .error .lenRange := by
  rw [udpCsumBytes, if_neg (by omega), if_pos h]

/-- Settles O19: what is written is `udpChecksum`, the checksum over the zeroed field, with no case
of its own for zero (R195). -/
theorem udpCsumResult : Obligations.UdpCsumResult := by
  intro srcIp dstIp dgram s hs
  refine ⟨fun hshort => ?_, fun hlong => ?_, fun hmin hmax => ?_⟩
  · exact exec_udpCsum_failedInto hs (udpCsumBytes_tooShort srcIp dstIp hshort)
  · exact exec_udpCsum_failedInto hs (udpCsumBytes_lenRange srcIp dstIp hlong)
  · exact ⟨_, _, udpChecksum srcIp dstIp dgram, rfl, exec_udpCsum_idle srcIp dstIp hs hmin hmax⟩

end Sys2Proof.Machine
end

section
/-! PROOFS. The TCP codec family (spec/45_tcp_codec.md): TCP_BUILD and TCP_PARSE end as their
algorithms answer, one answer for every outcome of their tests; each Boolean of TCP_FLAGS is one bit
of the word. -/

namespace Sys2Proof.Machine

/-! TCP_BUILD (R205 to R207). -/

section
variable {d : SegDesc} {ob : OutBuf} {s : State}

theorem exec_tcpBuild_idle (hs : s.rxs = .done) (ho : ob.overlaps = false) :
    exec (.tcpBuild d.srcPort d.dstPort d.seq d.ack d.flags d.window d.payload d.srcIp d.dstIp
      ob) s = .next (s.finishBuild (tcpBuildBytes d ob.cap)) :=
  State.issueInto_idle hs ho _

theorem exec_tcpBuild_failedInto {st : Status} (hs : s.rxs = .done) (ho : ob.overlaps = false)
    (h : tcpBuildBytes d ob.cap = .error st) :
    ∃ t, exec (.tcpBuild d.srcPort d.dstPort d.seq d.ack d.flags d.window d.payload d.srcIp d.dstIp
      ob) s = .next t ∧ s.failedInto t st :=
  ⟨_, exec_tcpBuild_idle hs ho, h ▸ s.failedInto_finishBuild st⟩

end

/-- Settles O21: the two length tests decide, in their order. -/
theorem tcpBuildResult : Obligations.TcpBuildResult := by
  intro d ob s hs ho
  refine ⟨fun hrange hfit => ?_, fun hlong => ?_, fun hrange hfull => ?_⟩
  · rw [exec_tcpBuild_idle hs ho, tcpBuildBytes_eq, if_neg (Nat.not_lt.mpr hrange),
      if_neg (Nat.not_lt.mpr hfit), ← length_tcpSegment]
    exact ⟨_, rfl⟩
  · exact exec_tcpBuild_failedInto hs ho (by rw [tcpBuildBytes_eq, if_pos hlong])
  · exact exec_tcpBuild_failedInto hs ho
      (by rw [tcpBuildBytes_eq, if_neg (Nat.not_lt.mpr hrange), if_pos hfull])

/-! TCP_PARSE (R208, R209). -/

theorem exec_tcpParse_failed {input : List Byte} {s : State} {st : Status} (hs : s.rxs = .done)
    (h : tcpParseBytes input = .error st) :
    ∃ t, exec (.tcpParse input) s = .next t ∧ s.failed t st := by
  refine ⟨s.raise st, ?_, s.failed_raise st⟩
  change s.issue _ = _
  rw [State.issue_idle hs, h]

theorem tcpParseBytes_tooShort {input : List Byte} (h : input.length < 20) :
    tcpParseBytes input = .error .tooShort := if_pos h

theorem tcpParseBytes_badLength {input : List Byte} (hmin : 20 ≤ input.length)
    (h : input.length < tcpHeaderLen input) : tcpParseBytes input = .error .badLength := by
  rw [tcpParseBytes, if_neg (Nat.not_lt.mpr hmin), if_pos h]

/-- A data offset below 5 passes as well: only the buffer's length bounds it (R209). -/
theorem tcpParseBytes_ok {input : List Byte} (hmin : 20 ≤ input.length)
    (h : tcpHeaderLen input ≤ input.length) :
    tcpParseBytes input = .ok (tcpHdrOf input,
      { offset := tcpHeaderLen input, length := input.length - tcpHeaderLen input }) := by
  rw [tcpParseBytes, if_neg (Nat.not_lt.mpr hmin), if_neg (Nat.not_lt.mpr h)]

/-- The high nibble of a byte is what the shift of R97 leaves. -/
theorem highNibble_toNat (b : Byte) : (b.extractLsb' 4 4).toNat = (b >>> 4).toNat := by
  have hlt : (b >>> 4).toNat < 2 ^ 4 := by
    rw [BitVec.toNat_ushiftRight, Nat.shiftRight_eq_div_pow]
    omega
  rw [highNibble_eq, BitVec.toNat_setWidth, Nat.mod_eq_of_lt hlt]

theorem tcpHeaderLen_eq (input : List Byte) :
    tcpHeaderLen input = (byteAt input 12 >>> 4).toNat * 4 := by
  rw [tcpHeaderLen, highNibble_toNat]

/-- Settles O22: each clause is one outcome of the tests of R209. -/
theorem tcpParseResult : Obligations.TcpParseResult := by
  intro input s hs
  rw [← tcpHeaderLen_eq]
  exact ⟨fun hshort => exec_tcpParse_failed hs (tcpParseBytes_tooShort hshort),
    fun hmin => ⟨fun hlong => exec_tcpParse_failed hs (tcpParseBytes_badLength hmin hlong),
      fun hfit => ⟨0, exec_tcpParse_ok hs (tcpParseBytes_ok hmin hfit)⟩⟩⟩

/-! TCP_FLAGS (R210, R211). -/

/-- A flag tested under a one-bit mask is that bit of the word, since the flags field holds the nine
low bits (R93). -/
theorem bitSet_flags_twoPow (w : U16) {k : Nat} (hk : k < 9) :
    bitSet (w &&& maskFlags) (BitVec.twoPow 16 k) = w.getLsbD k := by
  have hfield : maskFlags &&& BitVec.twoPow 16 k = BitVec.twoPow 16 k := by
    interval_cases k <;> decide
  have hne : BitVec.twoPow 16 k ≠ 0#16 := by
    interval_cases k <;> decide
  rw [Bool.eq_iff_iff, bitSet_flags hfield, BitVec.and_twoPow]
  cases w.getLsbD k <;> simp [hne]

theorem tcpFlagsOf_eq (w : U16) :
    tcpFlagsOf w = { syn := w.getLsbD 1, ack := w.getLsbD 4, fin := w.getLsbD 0,
                     rst := w.getLsbD 2 } := by
  rw [← bitSet_flags_twoPow w (k := 1) (by decide), ← bitSet_flags_twoPow w (k := 4) (by decide),
    ← bitSet_flags_twoPow w (k := 0) (by decide), ← bitSet_flags_twoPow w (k := 2) (by decide)]
  rfl

/-- Settles O23, from what each Boolean of R210 says of the word. -/
theorem tcpFlagsResult : Obligations.TcpFlagsResult := fun w _ hs =>
  ⟨0, tcpFlagsOf_eq w ▸ State.issue_idle hs _⟩

end Sys2Proof.Machine
end

section
/-! PROOFS. The TCP connection family (spec/46_tcp_fsm.md): one equation per state for the state
machine's step, one per outcome of TCP_SEG_IN's two scans; the capacity run carries the closed form
of the table after each SYN. -/

namespace Sys2Proof.Machine

/-! The rows of the state machine (R233 to R240). -/

section
variable (cfg : Config.Params) (hdr : TcpHdr) (plen : Nat) (app : List Byte) {r : Record}

theorem fsmStep_listen (hr : r.state = .listen) :
    fsmStep cfg hdr plen app r =
      if (tcpFlagsOf hdr.offFlags).syn && !(tcpFlagsOf hdr.offFlags).ack then fsmRow1 cfg hdr r
      else fsmNoRow r := by
  rw [fsmStep, hr]

theorem fsmStep_synReceived (hr : r.state = .synReceived) :
    fsmStep cfg hdr plen app r =
      if (tcpFlagsOf hdr.offFlags).ack then fsmRow2 r else fsmNoRow r := by
  rw [fsmStep, hr]

theorem fsmStep_established (hr : r.state = .established) :
    fsmStep cfg hdr plen app r =
      if 0 < plen then fsmRow3 cfg hdr plen app r
      else if (tcpFlagsOf hdr.offFlags).fin then fsmRow4 cfg hdr r
      else fsmNoRow r := by
  rw [fsmStep, hr]

theorem fsmStep_lastAck (hr : r.state = .lastAck) :
    fsmStep cfg hdr plen app r =
      if (tcpFlagsOf hdr.offFlags).ack then fsmRow6 r else fsmNoRow r := by
  rw [fsmStep, hr]

/-- The states without a row (R249), and CloseWait, whose row is internal (R238). -/
theorem fsmStep_noRow
    (hr : r.state ∈ [.closed, .finWait1, .finWait2, .closing, .timeWait, .closeWait]) :
    fsmStep cfg hdr plen app r = fsmNoRow r := by
  rw [fsmStep]
  cases hs : r.state <;> simp_all

/-- Row 3 leaves the state as it is, Established. -/
theorem fsmRow3_eq (hr : r.state = .established) :
    fsmRow3 cfg hdr plen app r =
      { record := { r with seq := r.seq + BitVec.ofNat 32 app.length,
                           ack := hdr.seq + BitVec.ofNat 32 plen },
        row := 3,
        tx := [replyTo cfg r r.seq (hdr.seq + BitVec.ofNat 32 plen) 0x010#9 app] } := by
  rw [hr]
  rfl

theorem fsmRow4_autoClose (h : cfg.autoClose = true) :
    fsmRow4 cfg hdr r =
      { record := { r with state := .lastAck, seq := r.seq + 1#32, ack := hdr.seq + 1#32 },
        row := 4,
        tx := [replyTo cfg r r.seq (hdr.seq + 1#32) 0x010#9 [],
               replyTo cfg r r.seq (hdr.seq + 1#32) 0x011#9 []] } :=
  if_pos h

theorem fsmRow4_waits (h : cfg.autoClose = false) :
    fsmRow4 cfg hdr r =
      { record := { r with state := .closeWait, ack := hdr.seq + 1#32 },
        row := 4, tx := [replyTo cfg r r.seq (hdr.seq + 1#32) 0x010#9 []] } :=
  if_neg (by rw [h]; decide)

end

/-- Settles O28: the equation of the record's state, at the flags and length the clause names. -/
theorem fsmRows : Obligations.FsmRows := by
  intro cfg hdr plen app r
  refine ⟨fun hr hsyn => ?_, fun hr hack => ?_, fun hr hpos => ?_, fun hr hplen hfin hauto => ?_,
    fun hr hplen hfin hauto => ?_, fun hr hack => ?_, ?_⟩
  · rw [fsmStep_listen _ _ _ _ hr, if_pos ((tcpFlagsOf_synOnly _).mpr hsyn)]
    rfl
  · rw [fsmStep_synReceived _ _ _ _ hr, if_pos ((tcpFlagsOf_ack _).mpr hack), fsmRow2]
  · rw [fsmStep_established _ _ _ _ hr, if_pos hpos, fsmRow3_eq _ _ _ _ hr]
  · rw [fsmStep_established _ _ _ _ hr, if_neg (by omega), if_pos ((tcpFlagsOf_fin _).mpr hfin),
      fsmRow4_autoClose _ _ hauto]
  · rw [fsmStep_established _ _ _ _ hr, if_neg (by omega), if_pos ((tcpFlagsOf_fin _).mpr hfin),
      fsmRow4_waits _ _ hauto]
  · rw [fsmStep_lastAck _ _ _ _ hr, if_pos ((tcpFlagsOf_ack _).mpr hack), fsmRow6]
  · rintro (⟨hr, hsyn⟩ | ⟨hr, hack⟩ | ⟨hr, hplen, hfin⟩ | ⟨hr, hack⟩ | hr)
    · rw [fsmStep_listen _ _ _ _ hr, if_neg (mt (tcpFlagsOf_synOnly _).mp hsyn), fsmNoRow]
    · rw [fsmStep_synReceived _ _ _ _ hr, if_neg (mt (tcpFlagsOf_ack _).mp hack), fsmNoRow]
    · rw [fsmStep_established _ _ _ _ hr, if_neg (by omega),
        if_neg (mt (tcpFlagsOf_fin _).mp hfin), fsmNoRow]
    · rw [fsmStep_lastAck _ _ _ _ hr, if_neg (mt (tcpFlagsOf_ack _).mp hack), fsmNoRow]
    · exact fsmStep_noRow _ _ _ _ hr

/-- A record a SYN allocates goes from Listen to SynReceived in the same operation (R228, R234). -/
theorem fsmStep_newRecord {hdr : TcpHdr} (cfg : Config.Params) (sip dip : IP4) (plen : Nat)
    (app : List Byte) (hsyn : isSynOnly hdr.offFlags) :
    fsmStep cfg hdr plen app (newRecord cfg sip dip hdr) =
      { record := openedRecord cfg sip dip hdr, row := 1, tx := [synAckOf cfg sip dip hdr] } := by
  rw [fsmStep_listen _ _ _ _ rfl, if_pos ((tcpFlagsOf_synOnly _).mpr hsyn)]
  rfl

/-! The scans of the table (R230, R231). -/

/-- The scan for a 4-tuple answers the lowest slot that holds it. -/
theorem lookup_eq_some_of_lowest {sip dip : IP4} {sp dp : U16} {tab : Table} {slot : Nat}
    {r : Record} (hslot : tab.matchesAt slot sip dip sp dp r)
    (hlow : ∀ j q, j < slot → ¬ tab.matchesAt j sip dip sp dp q) :
    lookup sip dip sp dp tab 0 = some (slot, r) := by
  cases hl : lookup sip dip sp dp tab 0 with
  | none => exact absurd hslot (lookup_none.mp hl slot r)
  | some p =>
    obtain ⟨j, q⟩ := p
    obtain ⟨-, hj, hbelow⟩ := lookup_some hl
    have hge : ¬ j < slot := fun h => hlow j q h hj
    have hle : ¬ slot < j := fun h => hbelow slot r h hslot
    obtain rfl : j = slot := by omega
    obtain rfl : q = r := by simpa using hj.1.symm.trans hslot.1
    rfl

/-- The scan for an EMPTY slot answers the lowest one. -/
theorem firstFree_eq_some_of_lowest {tab : Table} {slot : Nat} (hslot : tab[slot]? = some none)
    (hlow : ∀ j, j < slot → ∃ r, tab[j]? = some (some r)) : firstFree tab 0 = some slot := by
  cases hf : firstFree tab 0 with
  | none => exact absurd rfl (firstFree_none.mp hf none (List.mem_of_getElem? hslot))
  | some j =>
    obtain ⟨-, hj, hbelow⟩ := firstFree_some hf
    have hge : ¬ j < slot := fun h => by
      obtain ⟨q, hq⟩ := hlow j h
      simp [hq] at hj
    have hle : ¬ slot < j := fun h => by
      obtain ⟨q, hq⟩ := hbelow slot h
      simp [hq] at hslot
    exact congrArg some (by omega)

/-! TCP_SEG_IN (R228 to R232). -/

section
variable {sip dip : IP4} {hdr : TcpHdr} {tab : Table} {slot : Nat} {r : Record} {s : State}
variable (cfg : Config.Params) (plen : Nat) (app : List Byte)

theorem segInTable_routes
    (hl : lookup sip dip hdr.srcPort hdr.dstPort (reclaimed tab) 0 = some (slot, r)) :
    segInTable cfg sip dip hdr plen app tab =
      ((reclaimed tab).set slot (some (fsmStep cfg hdr plen app r).record),
        .ok { slot := slot, row := (fsmStep cfg hdr plen app r).row,
              tx := (fsmStep cfg hdr plen app r).tx }) := by
  simp only [segInTable, reclaim_eq, hl]

theorem segInTable_opens
    (hno : Table.noMatch (reclaimed tab) sip dip hdr.srcPort hdr.dstPort)
    (hsyn : isSynOnly hdr.offFlags) (hf : firstFree (reclaimed tab) 0 = some slot) :
    segInTable cfg sip dip hdr plen app tab =
      ((reclaimed tab).set slot (some (openedRecord cfg sip dip hdr)),
        .ok { slot := slot, row := 1, tx := [synAckOf cfg sip dip hdr] }) := by
  simp only [segInTable, reclaim_eq, lookup_none.mpr hno, (tcpFlagsOf_synOnly _).mpr hsyn, if_true,
    hf, fsmStep_newRecord cfg sip dip plen app hsyn]

theorem segInTable_full
    (hno : Table.noMatch (reclaimed tab) sip dip hdr.srcPort hdr.dstPort)
    (hsyn : isSynOnly hdr.offFlags) (hfull : none ∉ reclaimed tab) :
    segInTable cfg sip dip hdr plen app tab = (reclaimed tab, .error .tableFull) := by
  have hf : firstFree (reclaimed tab) 0 = none :=
    firstFree_none.mpr fun _ ho h => hfull (h ▸ ho)
  simp only [segInTable, reclaim_eq, lookup_none.mpr hno, (tcpFlagsOf_synOnly _).mpr hsyn, if_true,
    hf]

theorem segInTable_noConn
    (hno : Table.noMatch (reclaimed tab) sip dip hdr.srcPort hdr.dstPort)
    (hsyn : ¬ isSynOnly hdr.offFlags) :
    segInTable cfg sip dip hdr plen app tab = (reclaimed tab, .error .noConn) := by
  simp only [segInTable, reclaim_eq, lookup_none.mpr hno]
  exact if_neg (mt (tcpFlagsOf_synOnly _).mp hsyn)

theorem exec_tcpSegIn_idle (hs : s.rxs = .done) :
    exec (.tcpSegIn sip dip hdr plen app) s = .next (tcpSegInOp sip dip hdr plen app s) :=
  State.issue_idle hs _

/-- TCP_SEG_IN ends as its algorithm on the table answers: taken. -/
theorem exec_tcpSegIn_ok {tab' : Table} {o : SegIn} (hs : s.rxs = .done)
    (h : segInTable s.cfg sip dip hdr plen app s.tab = (tab', .ok o)) :
    exec (.tcpSegIn sip dip hdr plen app) s = .next { s with
      tab := tab', status := .ok, count := 0, result := .segIn o.slot o.row o.tx } := by
  rw [exec_tcpSegIn_idle plen app hs, tcpSegInOp, h]
  rfl

/-- The same, dropped: no descriptor, and the other results are free (R231, R232). -/
theorem exec_tcpSegIn_error {tab' : Table} {st : Status} (hs : s.rxs = .done)
    (h : segInTable s.cfg sip dip hdr plen app s.tab = (tab', .error st)) :
    ∃ n k w f, exec (.tcpSegIn sip dip hdr plen app) s = .next { s with
      tab := tab', status := st, count := n, result := .segIn k w [], fresh := f } := by
  rw [exec_tcpSegIn_idle plen app hs, tcpSegInOp, h]
  exact ⟨_, _, _, _, rfl⟩

end

/-- Settles O25: the scan for the 4-tuple fails and the scan for an EMPTY slot answers `slot`. -/
theorem segInOpens : Obligations.SegInOpens := by
  intro sip dip hdr plen app s slot hs hno hsyn hslot hlow
  exact ⟨0, exec_tcpSegIn_ok plen app hs
    (segInTable_opens _ plen app hno hsyn (firstFree_eq_some_of_lowest hslot hlow))⟩

/-- Settles O26: the scan for the 4-tuple answers `slot`. -/
theorem segInRoutes : Obligations.SegInRoutes := by
  intro sip dip hdr plen app s slot r hs hslot hlow
  exact ⟨0, exec_tcpSegIn_ok plen app hs
    (segInTable_routes _ plen app (lookup_eq_some_of_lowest hslot hlow))⟩

/-- Settles O27: the scan for the 4-tuple fails, and so does the one for an EMPTY slot or the test
for a SYN. -/
theorem segInDrops : Obligations.SegInDrops := by
  intro sip dip hdr plen app s hs hno
  exact ⟨fun hsyn hfull => exec_tcpSegIn_error plen app hs
      (segInTable_full _ plen app hno hsyn hfull),
    fun hsyn => exec_tcpSegIn_error plen app hs (segInTable_noConn _ plen app hno hsyn)⟩

/-! Capacity (R247). -/

/-- The table when SYNs have opened the connections of `gs` in an empty table, in order. -/
def openedTable (cfg : Config.Params) (gs : List Segment) : Table :=
  gs.map (fun g => some (openedRecord cfg g.sip g.dip g.hdr)) ++
    List.replicate (cfg.tableCap - gs.length) none

/-- A SynReceived record is outside the closing set (R229). -/
theorem reclaimed_openedTable (cfg : Config.Params) (gs : List Segment) :
    reclaimed (openedTable cfg gs) = openedTable cfg gs := by
  simp [reclaimed, openedTable, openedRecord, survives, Option.filter]

theorem noMatch_openedTable {cfg : Config.Params} {gs : List Segment} {g : Segment}
    (h : g.key ∉ gs.map Segment.key) :
    Table.noMatch (openedTable cfg gs) g.sip g.dip g.hdr.srcPort g.hdr.dstPort := by
  rintro k r ⟨hk, hsip, hdip, hsp, hdp⟩
  have hmem : some r ∈ openedTable cfg gs := List.mem_of_getElem? hk
  obtain ⟨g', hg', rfl⟩ : ∃ g' ∈ gs, openedRecord cfg g'.sip g'.dip g'.hdr = r := by
    simpa [openedTable, List.mem_replicate] using hmem
  refine h (List.mem_map.mpr ⟨g', hg', ?_⟩)
  simp only [openedRecord] at hsip hdip hsp hdp
  simp only [Segment.key, hsip, hdip, hsp, hdp]

theorem openedTable_occupied {cfg : Config.Params} {gs : List Segment} {k : Nat}
    (h : k < gs.length) : ∃ r, (openedTable cfg gs)[k]? = some (some r) := by
  refine ⟨openedRecord cfg gs[k].sip gs[k].dip gs[k].hdr, ?_⟩
  rw [openedTable, List.getElem?_append_left (by simpa using h)]
  simp [h]

theorem openedTable_free {cfg : Config.Params} {gs : List Segment}
    (h : gs.length < cfg.tableCap) : (openedTable cfg gs)[gs.length]? = some none := by
  rw [openedTable, List.getElem?_append_right (by simp)]
  simp [h]

theorem openedTable_set {cfg : Config.Params} {gs : List Segment} (g : Segment)
    (h : gs.length < cfg.tableCap) :
    (openedTable cfg gs).set gs.length (some (openedRecord cfg g.sip g.dip g.hdr)) =
      openedTable cfg (gs ++ [g]) := by
  have hleft : cfg.tableCap - gs.length = cfg.tableCap - (gs.length + 1) + 1 := by omega
  simp [openedTable, hleft, List.replicate_succ]

theorem openedTable_full {cfg : Config.Params} {gs : List Segment}
    (h : gs.length = cfg.tableCap) :
    openedTable cfg gs = gs.map fun g => some (openedRecord cfg g.sip g.dip g.hdr) := by
  simp [openedTable, h]

/-- `t` is idle, with the configuration `cfg`, after SYNs have opened the connections of `gs`. -/
structure State.HasOpened (cfg : Config.Params) (gs : List Segment) (t : State) : Prop where
  idle : t.rxs = .done
  cfg_eq : t.cfg = cfg
  tab_eq : t.tab = openedTable cfg gs

/-- Among different 4-tuples, none occurs before its own place. -/
theorem Segment.key_not_mem_of_nodup {gs more : List Segment} {g : Segment}
    (h : ((gs ++ g :: more).map Segment.key).Nodup) : g.key ∉ gs.map Segment.key := by
  rw [List.map_append, List.map_cons, List.nodup_append] at h
  obtain ⟨-, -, hdisjoint⟩ := h
  exact fun hmem => hdisjoint _ hmem _ List.mem_cons_self rfl

/-- One more SYN, with a 4-tuple of its own and a slot to take, opens the next slot. -/
theorem State.HasOpened.exec_syn {cfg : Config.Params} {gs : List Segment} {t : State}
    (ht : t.HasOpened cfg gs) {g : Segment} (hroom : gs.length < cfg.tableCap)
    (hkey : g.key ∉ gs.map Segment.key) (hsyn : isSynOnly g.hdr.offFlags) :
    ∃ u, exec g.instr t = .next u ∧ u.HasOpened cfg (gs ++ [g]) ∧ u.status = .ok ∧
      u.result = .segIn gs.length 1 [synAckOf cfg g.sip g.dip g.hdr] := by
  obtain ⟨hidle, rfl, htab⟩ := ht
  have hrec : reclaimed t.tab = openedTable t.cfg gs := by rw [htab, reclaimed_openedTable]
  obtain ⟨n, hexec⟩ := segInOpens g.sip g.dip g.hdr g.plen g.appData t gs.length hidle
    (by rw [hrec]; exact noMatch_openedTable hkey) hsyn (by rw [hrec]; exact openedTable_free hroom)
    (fun j hj => by rw [hrec]; exact openedTable_occupied hj)
  rw [hrec, openedTable_set g hroom] at hexec
  exact ⟨_, hexec, ⟨hidle, rfl, rfl⟩, rfl, rfl⟩

/-- SYNs with different 4-tuples, as many as there are slots left, are all taken. -/
theorem State.HasOpened.execAll_syns {cfg : Config.Params} {gs more : List Segment} {t : State}
    (ht : t.HasOpened cfg gs) (hroom : (gs ++ more).length ≤ cfg.tableCap)
    (hkeys : ((gs ++ more).map Segment.key).Nodup)
    (hsyn : ∀ g ∈ more, isSynOnly g.hdr.offFlags) :
    ∃ u, execAll (more.map Segment.instr) t = .next u ∧ u.HasOpened cfg (gs ++ more) := by
  induction more generalizing gs t with
  | nil => exact ⟨t, rfl, by rwa [List.append_nil]⟩
  | cons g more ih =>
    have hslot : gs.length < cfg.tableCap := by
      rw [List.length_append, List.length_cons] at hroom
      omega
    obtain ⟨u, hu, hopened, -⟩ := ht.exec_syn hslot (Segment.key_not_mem_of_nodup hkeys)
      (hsyn g List.mem_cons_self)
    rw [List.append_cons] at hroom hkeys ⊢
    obtain ⟨v, hv, hall⟩ := ih hopened hroom hkeys fun q hq => hsyn q (List.mem_cons_of_mem _ hq)
    exact ⟨v, by simp only [List.map_cons, execAll, hu, hv], hall⟩

/-- When every slot is taken, a SYN with yet another 4-tuple is dropped. -/
theorem State.HasOpened.exec_syn_full {cfg : Config.Params} {gs : List Segment} {t : State}
    (ht : t.HasOpened cfg gs) (hfull : gs.length = cfg.tableCap) {g : Segment}
    (hkey : g.key ∉ gs.map Segment.key) (hsyn : isSynOnly g.hdr.offFlags) :
    ∃ u n w, exec g.instr t = .next u ∧ u.status = .tableFull ∧ u.result = .segIn n w [] ∧
      u.tab = t.tab := by
  obtain ⟨hidle, rfl, htab⟩ := ht
  have hrec : reclaimed t.tab = t.tab := by rw [htab, reclaimed_openedTable]
  obtain ⟨hdropped, -⟩ := segInDrops g.sip g.dip g.hdr g.plen g.appData t hidle
    (by rw [hrec, htab]; exact noMatch_openedTable hkey)
  obtain ⟨_, k, w, _, hexec⟩ := hdropped hsyn (by
    rw [hrec, htab, openedTable_full hfull]
    simp)
  exact ⟨_, k, w, hexec, rfl, rfl, hrec⟩

/-- Settles O29: the run of the first `k` SYNs, one SYN more, and the run of all of them. -/
theorem tableCapacityRun : Obligations.TableCapacityRun := by
  intro s gs hidle hempty hlen hkeys hsyn
  have hstart : s.HasOpened s.cfg [] := ⟨hidle, rfl, hempty⟩
  refine ⟨fun k g hg => ?_, ?_⟩
  · obtain ⟨hk, rfl⟩ := List.getElem?_eq_some_iff.mp hg
    have hcount : (gs.take k).length = k := List.length_take_of_le hk.le
    have hsplit : gs.take k ++ gs[k] :: gs.drop (k + 1) = gs := by
      rw [List.getElem_cons_drop, List.take_append_drop]
    have hfirst : ((gs.take k).map Segment.key).Nodup :=
      hkeys.sublist ((List.take_sublist k gs).map _)
    obtain ⟨t, ht, hopened⟩ := hstart.execAll_syns (more := gs.take k)
      (by rw [List.nil_append]; omega) hfirst fun q hq => hsyn q (List.mem_of_mem_take hq)
    rw [List.nil_append] at hopened
    obtain ⟨u, hu, -, hok, hres⟩ := hopened.exec_syn (by omega)
      (Segment.key_not_mem_of_nodup (by rwa [hsplit])) (hsyn _ (List.getElem_mem hk))
    rw [hcount] at hres
    exact ⟨t, u, ht, hu, hok, hres⟩
  · obtain ⟨t, ht, hopened⟩ := hstart.execAll_syns (more := gs) hlen.le hkeys hsyn
    exact ⟨t, ht, hopened.tab_eq.trans (openedTable_full hlen), fun g hg hnew =>
      hopened.exec_syn_full hlen hnew hg⟩

/-! TCP_CLOSE (R243). -/

theorem closeTarget_eq_some {s : State} {slot : Nat} {r : Record} (hslot : slot < s.cfg.tableCap)
    (hr : s.tab[slot]? = some (some r)) (hstate : r.state = .closeWait) :
    closeTarget s slot = some r := by
  rw [closeTarget, if_neg (Nat.not_le.mpr hslot), hr]
  exact if_pos hstate

theorem closeTarget_eq_none {s : State} {slot : Nat}
    (h : s.cfg.tableCap ≤ slot ∨ ∀ r, s.tab[slot]? = some (some r) → r.state ≠ .closeWait) :
    closeTarget s slot = none := by
  cases ht : closeTarget s slot with
  | none => rfl
  | some r =>
    obtain ⟨hslot, hr, hstate⟩ := closeTarget_some ht
    exact absurd hstate (h.resolve_left (Nat.not_le.mpr hslot) r hr)

/-- Settles O31: `closeTarget` tells the two clauses apart. -/
theorem tcpCloseResult : Obligations.TcpCloseResult := by
  intro slot s hs
  have hexec : exec (.tcpClose slot) s = .next (tcpCloseOp slot s) := State.issue_idle hs _
  refine ⟨fun r hslot hr hstate => ⟨0, ?_⟩, fun h => ⟨_, hexec, ?_⟩⟩
  · rw [hexec, tcpCloseOp, closeTarget_eq_some hslot hr hstate]
    rfl
  · rw [tcpCloseOp, closeTarget_eq_none h]
    exact ⟨_, _, _, rfl⟩

/-! SEND_SEG (R248). -/

section
variable {d : SegDesc} {s : State}

/-- Once the segment is built, the rest of the expansion is IP_BUILD and TX_FRAME. -/
theorem sendSeg_built (hrange : 20 + d.payload.length ≤ 65535)
    (hcap : 20 + d.payload.length ≤ s.cfg.segCap) :
    sendSeg d s = sendPacket d.srcIp d.dstIp 6#8
      { bytes := tcpSegment d, sum := csumSum (tcpCsumInput d) } s := by
  rw [sendSeg, tcpBuildBytes_eq, if_neg (Nat.not_lt.mpr hrange), if_neg (Nat.not_lt.mpr hcap)]
  rfl

/-- None of the three steps fails: the frame is sent. -/
theorem sendSeg_ok (h : segFits s.cfg d) :
    ∃ w n, s.sameButSending w ∧ sendSeg d s =
      ({ w with txLine := s.txLine ++ slipFrame (segPacket s.cfg d) }, .ok n) := by
  obtain ⟨hrange, hcap, hpacket, hframe⟩ := h
  rw [sendSeg_built hrange hcap]
  exact sendPacket_ok (by rwa [length_tcpSegment]) hframe

/-- One of the three steps fails: nothing is sent, whichever it is. -/
theorem sendSeg_error (h : ¬ segFits s.cfg d) :
    ∃ w st, s.sameButSending w ∧ st ≠ .ok ∧ sendSeg d s = (w, .error st) := by
  by_cases hrange : 20 + d.payload.length ≤ 65535
  · by_cases hcap : 20 + d.payload.length ≤ s.cfg.segCap
    · rw [sendSeg_built hrange hcap]
      refine sendPacket_error fun ⟨hpacket, hframe⟩ => h ⟨hrange, hcap, ?_, hframe⟩
      rwa [length_tcpSegment] at hpacket
    · refine ⟨s, .outOverflow, .refl s, nofun, ?_⟩
      rw [sendSeg, tcpBuildBytes_eq, if_neg (Nat.not_lt.mpr hrange),
        if_pos (Nat.lt_of_not_le hcap)]
  · refine ⟨s, .lenRange, .refl s, nofun, ?_⟩
    rw [sendSeg, tcpBuildBytes_eq, if_pos (Nat.lt_of_not_le hrange)]

end

/-- Settles O40: the operation ends as its expansion answers. -/
theorem sendSegResult : Obligations.SendSegResult := by
  intro d s hs
  have hexec : exec (.sendSeg d) s = .next (finishSend (sendSeg d s)) := State.issue_idle hs _
  rw [hexec]
  refine ⟨fun hfits => ?_, fun hfails => ?_⟩
  · obtain ⟨w, n, hw, hsent⟩ := sendSeg_ok hfits
    rw [hsent]
    exact ⟨w, n, hw, rfl⟩
  · obtain ⟨w, st, hw, hst, hfailed⟩ := sendSeg_error hfails
    rw [hfailed]
    exact ⟨w, w.raise st, st, hw, hst, rfl, w.failed_raise st⟩

end Sys2Proof.Machine
end

section
/-! PROOFS. Sending and the dispatcher (spec/47_rx_dispatch.md R285 to R296): TX_FRAME, the branches
DISPATCH takes and the actions they end in. Each algorithm has one answer for every outcome of its
tests, and a verdict ends its operation in one of two ways: a drop or a report. -/

namespace Sys2Proof.Machine

/-! TX_FRAME (R285, R286). -/

theorem exec_txFrame_idle {input : List Byte} {s : State} (hs : s.rxs = .done) :
    exec (.txFrame input) s = .next (finishSend (transmit input s)) := State.issue_idle hs _

/-- Settles O38: the frame fits TX_CAP or it does not. -/
theorem txFrameResult : Obligations.TxFrameResult := by
  intro input s hs
  rw [exec_txFrame_idle hs]
  refine ⟨fun hfits => ?_, fun hfull => ?_⟩
  · rw [transmit_ok hfits]
    exact ⟨_, _, _, rfl⟩
  · obtain ⟨p, c, hfailed⟩ := transmit_error hfull
    rw [hfailed]
    exact ⟨_, p, c, [], rfl, State.failed_raise _ _⟩

/-! How a verdict ends its operation (R290, R291). -/

section
variable {s w : State} {r : Verdict × State}

/-- A drop changes nothing but the status and the results. -/
theorem issue_dropped {cause : Status} (hs : s.rxs = .done) (h : r = (dropFor cause, w)) :
    ∃ n f e, s.issue (finishVerdict r) = .next { w with
      status := .dropped, count := n, fresh := f,
      result := .verdict { status := .dropped, cause := some cause, event := e } } := by
  subst h
  exact ⟨_, _, _, State.issue_idle hs _⟩

/-- Neither does a verdict OK. -/
theorem issue_ok {v : Verdict} (hs : s.rxs = .done) (hv : v.status = .ok) (h : r = (v, w)) :
    s.issue (finishVerdict r) = .next { w with
      status := .ok, count := 0, result := .verdict v } := by
  subst h
  rw [State.issue_idle hs, finishVerdict, if_pos hv]
  rfl

/-- A report to the host is a verdict OK that carries its event. -/
theorem issue_reported {ev : Event} (hs : s.rxs = .done) (h : r = (reportEvent ev, w)) :
    ∃ n v, v.status = .ok ∧ v.event = some ev ∧ s.issue (finishVerdict r) = .next { w with
      status := .ok, count := n, result := .verdict v } :=
  ⟨0, reportEvent ev, rfl, rfl, issue_ok hs rfl h⟩

end

/-- The slice from an offset to the end. -/
theorem sliceBytes_rest (input : List Byte) (k : Nat) :
    sliceBytes input { offset := k, length := input.length - k } = input.drop k :=
  List.take_of_length_le List.length_drop.le

/-! The actions on an Echo Request and an Echo Reply (R292). -/

section
variable {src dst : IP4} {identifier sequence : U16} {payload : List Byte} {s w : State}

theorem echoRequestAction_sent {n : Nat}
    (h : echoReply src dst identifier sequence payload s = (w, .ok n)) :
    echoRequestAction src dst identifier sequence payload s = (verdictOk, w) := by
  rw [echoRequestAction, h]

theorem echoRequestAction_dropped {st : Status}
    (h : echoReply src dst identifier sequence payload s = (w, .error st)) :
    echoRequestAction src dst identifier sequence payload s = (dropFor st, w) := by
  rw [echoRequestAction, h]

end

/-- Settles O43: the request's verdict is that of ECHO_REPLY's expansion. -/
theorem echoActions : Obligations.EchoActions := by
  intro src dst identifier sequence payload s hs
  refine ⟨fun hfits => ?_, fun hfails => ?_, issue_reported hs rfl⟩
  · obtain ⟨w, _, hw, hsent⟩ := echoReply_ok hfits
    exact ⟨w, 0, verdictOk, hw, rfl, issue_ok hs rfl (echoRequestAction_sent hsent)⟩
  · obtain ⟨w, st, hw, _, hfailed⟩ := echoReply_error hfails
    obtain ⟨n, f, e, hexec⟩ := issue_dropped hs (echoRequestAction_dropped hfailed)
    exact ⟨w, n, f, _, hw, rfl, hexec⟩

/-! The ICMP branch (R292). -/

section
variable (src dst : IP4) {p : List Byte} (s : State)

theorem icmpBranch_tooShort (h : p.length < 8) :
    icmpBranch src dst p s = (dropFor .tooShort, s) := by
  rw [icmpBranch, icmpParseBytes_tooShort h]

/-- The type alone selects the action: code and checksum are not examined. -/
theorem icmpBranch_parsed (h : 8 ≤ p.length) :
    icmpBranch src dst p s =
      if byteAt p 0 = 8#8 then
        echoRequestAction src dst (getBE16 p 4) (getBE16 p 6) (p.drop 8) s
      else if byteAt p 0 = 0#8 then
        echoReplyAction src (getBE16 p 4) (getBE16 p 6) (p.drop 8) s
      else (dropFor .dropped, s) := by
  rw [icmpBranch, icmpParseBytes_ok h]
  simp only [sliceBytes_rest]
  rfl

end

/-- Settles O42: the length test, then the type. -/
theorem icmpBranchResult : Obligations.IcmpBranchResult := by
  intro src dst p s hs
  refine ⟨fun hshort => issue_dropped hs (icmpBranch_tooShort src dst s hshort), fun hmin => ?_⟩
  have hbranch := icmpBranch_parsed src dst s hmin
  have hrequest (htype : byteAt p 0 = 8#8) : icmpBranch src dst p s =
      echoRequestAction src dst (getBE16 p 4) (getBE16 p 6) (p.drop 8) s := by
    rw [hbranch, if_pos htype]
  have hreply (htype : byteAt p 0 = 0#8) : icmpBranch src dst p s =
      echoReplyAction src (getBE16 p 4) (getBE16 p 6) (p.drop 8) s := by
    rw [hbranch, htype]
    rfl
  refine ⟨fun htype => congrArg (s.issue <| finishVerdict ·) (hrequest htype),
    fun htype => congrArg (s.issue <| finishVerdict ·) (hreply htype),
    fun htype => issue_reported hs (hreply htype), fun hreq hrep => ?_⟩
  rw [if_neg hreq, if_neg hrep] at hbranch
  obtain ⟨n, f, e, hexec⟩ := issue_dropped hs hbranch
  exact ⟨n, f, _, e, hexec⟩

/-! The UDP branch (R293). -/

section
variable (src dst : IP4) {p : List Byte} (s : State)

theorem udpBranch_dropped {st : Status} (h : udpParseBytes p = .error st) :
    udpBranch src dst p s = (dropFor st, s) := by
  rw [udpBranch, h]

theorem udpBranch_reported (hmin : 8 ≤ p.length) (hbuf : (getBE16 p 4).toNat ≤ p.length)
    (hhdr : 8 ≤ (getBE16 p 4).toNat) :
    udpBranch src dst p s =
      (reportEvent (.udpRx src dst (getBE16 p 0) (getBE16 p 2)
        ((p.drop 8).take ((getBE16 p 4).toNat - 8))), s) := by
  rw [udpBranch, udpParseBytes_ok hmin hbuf hhdr]
  rfl

end

/-- Settles O44: each clause is one outcome of UDP_PARSE's tests. -/
theorem udpBranchResult : Obligations.UdpBranchResult := fun src dst _ s hs =>
  ⟨fun hshort => issue_dropped hs (udpBranch_dropped src dst s (udpParseBytes_tooShort hshort)),
    fun hmin =>
      ⟨fun hfield =>
        issue_dropped hs (udpBranch_dropped src dst s (udpParseBytes_badLength hmin hfield)),
      fun hbuf hhdr => issue_reported hs (udpBranch_reported src dst s hmin hbuf hhdr)⟩⟩

/-! The TCP branch (R294). -/

/-- SEND_SEG's effect, whether its three steps succeed or not (R248). -/
theorem sendSeg_sends (d : SegDesc) (s : State) :
    ∃ w, s.sameButSending w ∧
      (sendSeg d s).1 = { w with txLine := s.txLine ++ segLine s.cfg d } := by
  unfold segLine
  split
  · obtain ⟨w, n, hw, hsent⟩ := sendSeg_ok ‹_›
    exact ⟨w, hw, by rw [hsent]⟩
  · obtain ⟨w, st, hw, _, hfailed⟩ := sendSeg_error ‹_›
    refine ⟨w, hw, ?_⟩
    obtain ⟨_, _, _, _, rfl⟩ := hw
    rw [hfailed, List.append_nil]

/-- The frames of the descriptors that can be built are sent in order (R248). -/
theorem sendAll_sends (ds : List SegDesc) (s : State) :
    ∃ w, s.sameButSending w ∧
      sendAll ds s = { w with txLine := s.txLine ++ ds.flatMap (segLine s.cfg) } := by
  induction ds generalizing s with
  | nil => exact ⟨s, .refl s, by simp [sendAll]⟩
  | cons d ds ih =>
    obtain ⟨_, ⟨p, c, sm, tb, rfl⟩, hd⟩ := sendSeg_sends d s
    obtain ⟨_, ⟨p', c', sm', tb', rfl⟩, hds⟩ := ih (sendSeg d s).1
    refine ⟨_, ⟨p', c', sm', tb', rfl⟩, ?_⟩
    rw [sendAll, hds, hd]
    simp

section
variable {s : State} (sip dip : IP4) (hdr : TcpHdr) (p : List Byte)

theorem State.nextApp_listed {a : List Byte} {as : List (List Byte)} (h : s.apps = a :: as) :
    s.nextApp sip dip hdr p = (a, { s with apps := as }) := by
  rw [State.nextApp, h]

theorem State.nextApp_free (h : s.apps = []) :
    s.nextApp sip dip hdr p = (Config.app sip dip hdr p, { s with apps := [] }) := by
  have hsame : s = { s with apps := [] } := by rw [← h]
  rw [← hsame, State.nextApp, h]

end

/-- A segment that is not taken is so for a cause (R231, R232). -/
theorem segInTable_error_ne_ok {cfg : Config.Params} {sip dip : IP4} {hdr : TcpHdr} {plen : Nat}
    {app : List Byte} {tab tab' : Table} {st : Status}
    (h : segInTable cfg sip dip hdr plen app tab = (tab', .error st)) : st ≠ .ok := by
  rcases segInTable_cases cfg sip dip hdr plen app tab with
    ⟨_, _, _, e⟩ | ⟨_, ⟨_, _, _, e⟩ | ⟨_, _, e⟩ | ⟨_, e⟩⟩ <;> rw [e] at h <;> cases h <;> nofun

section
variable {src dst : IP4} {p a : List Byte} {as : List (List Byte)} {s : State}

theorem tcpBranch_dropped {st : Status} (h : tcpParseBytes p = .error st) :
    tcpBranch src dst p s = (dropFor st, s) := by
  rw [tcpBranch, h]

section
variable {tab : Table} (hmin : 20 ≤ p.length) (hfit : tcpHeaderLen p ≤ p.length)
  (happ : s.nextApp src dst (tcpHdrOf p) (p.drop (tcpHeaderLen p)) = (a, { s with apps := as }))

include hmin hfit happ

/-- TCP_SEG_IN takes the segment. -/
theorem tcpBranch_taken {o : SegIn}
    (h : segInTable s.cfg src dst (tcpHdrOf p) (p.length - tcpHeaderLen p) a s.tab =
      (tab, .ok o)) :
    tcpBranch src dst p s = (reportEvent (.tcpRx o.slot o.row (p.drop (tcpHeaderLen p))),
      sendAll o.tx { s with apps := as, tab := tab }) := by
  simp only [tcpBranch, tcpParseBytes_ok hmin hfit, sliceBytes_rest, happ, h]

/-- TCP_SEG_IN fails. -/
theorem tcpBranch_refused {st : Status}
    (h : segInTable s.cfg src dst (tcpHdrOf p) (p.length - tcpHeaderLen p) a s.tab =
      (tab, .error st)) :
    tcpBranch src dst p s = (dropFor st, { s with apps := as, tab := tab }) := by
  simp only [tcpBranch, tcpParseBytes_ok hmin hfit, sliceBytes_rest, happ, h]

/-- The branch ends as TCP_SEG_IN does on the answer of APP. -/
theorem tcpBranchEnds_of_app (hs : s.rxs = .done) : s.tcpBranchEnds src dst p a as := by
  rcases h : segInTable s.cfg src dst (tcpHdrOf p) (p.length - tcpHeaderLen p) a s.tab with
    ⟨tab, st | o⟩
  · obtain ⟨_, _, _, _, hu⟩ := exec_tcpSegIn_error _ _ hs h
    exact ⟨_, hu, .inr ⟨segInTable_error_ne_ok h,
      issue_dropped hs (tcpBranch_refused hmin hfit happ h)⟩⟩
  · obtain ⟨_, ⟨ep, ec, sm, tb, rfl⟩, hsent⟩ := sendAll_sends o.tx { s with apps := as, tab := tab }
    have htaken := tcpBranch_taken hmin hfit happ h
    rw [hsent] at htaken
    obtain ⟨n, v, hv, hevent, hexec⟩ := issue_reported hs htaken
    exact ⟨_, exec_tcpSegIn_ok _ _ hs h, .inl ⟨rfl, o.slot, o.row, o.tx, _, n, v, rfl,
      ⟨ep, ec, sm, tb, rfl⟩, hv, hevent, hexec⟩⟩

end

end

/-- Settles O45: TCP_PARSE's tests, then APP's answer, listed or not. -/
theorem tcpBranchResult : Obligations.TcpBranchResult := by
  intro src dst p s hs
  refine ⟨fun hshort => issue_dropped hs (tcpBranch_dropped (tcpParseBytes_tooShort hshort)),
    fun hmin hlong => issue_dropped hs (tcpBranch_dropped (tcpParseBytes_badLength hmin hlong)),
    fun hmin hfit => ⟨fun _ _ happs => ?_, fun happs => ?_⟩⟩
  · exact tcpBranchEnds_of_app hmin hfit (State.nextApp_listed _ _ _ _ happs) hs
  · exact ⟨_, tcpBranchEnds_of_app hmin hfit (State.nextApp_free _ _ _ _ happs) hs⟩

/-! DISPATCH (R290, R295). -/

section
variable {frame : List Byte} {s : State}

theorem dispatchFrame_dropped {st : Status} (h : ipParseBytes s.cfg frame = .error st) :
    dispatchFrame frame s = (dropFor st, s) := by
  rw [dispatchFrame, h]

/-- The protocol number selects the branch of a frame that parses. -/
theorem dispatchFrame_parsed (hmin : 20 ≤ frame.length) (hhdr : ipHeaderLen frame ≤ frame.length)
    (htotal : s.cfg.ipCheckTotalLength = true → (getBE16 frame 2).toNat ≤ frame.length) :
    dispatchFrame frame s =
      if byteAt frame 9 = 1#8 then
        icmpBranch (getIP4 frame 12) (getIP4 frame 16) (frame.drop (ipHeaderLen frame)) s
      else if byteAt frame 9 = 17#8 then
        udpBranch (getIP4 frame 12) (getIP4 frame 16) (frame.drop (ipHeaderLen frame)) s
      else if byteAt frame 9 = 6#8 then
        tcpBranch (getIP4 frame 12) (getIP4 frame 16) (frame.drop (ipHeaderLen frame)) s
      else (dropFor .dropped, s) := by
  rw [dispatchFrame, ipParseBytes_passed hmin hhdr htotal]
  simp only [sliceBytes_rest]
  rfl

end

/-- Settles O41: IP_PARSE's tests, then the protocol number. -/
theorem dispatchRoutes : Obligations.DispatchRoutes := by
  intro frame s hs
  refine ⟨fun hshort => issue_dropped hs (dispatchFrame_dropped (ipParseBytes_tooShort _ hshort)),
    fun hmin => ⟨fun hbad =>
      issue_dropped hs (dispatchFrame_dropped (ipParseBytes_badLength hmin hbad)),
    fun hhdr htotal => ?_⟩⟩
  have hbranch := dispatchFrame_parsed hmin hhdr htotal
  have route {r : Verdict × State} (h : dispatchFrame frame s = r) :
      exec (.dispatch frame) s = s.issue (finishVerdict r) := by
    rw [← h]
    rfl
  have hudp (hproto : byteAt frame 9 = 17#8) : exec (.dispatch frame) s =
      exec (.ipProtoUdp (getIP4 frame 12) (getIP4 frame 16) (frame.drop (ipHeaderLen frame))) s :=
    route (by rw [hbranch, hproto]; rfl)
  refine ⟨fun hproto => ?_, hudp, fun hproto hlen hbuf hfield => ?_, fun hproto => ?_,
    fun hicmp htcp hother => ?_⟩
  · exact route (by rw [hbranch, hproto]; rfl)
  · rw [hudp hproto]
    exact ((udpBranchResult _ _ _ s hs).2 hlen).2 hbuf hfield
  · exact route (by rw [hbranch, hproto]; rfl)
  · rw [if_neg hicmp, if_neg hother, if_neg htcp] at hbranch
    exact issue_dropped hs hbranch

end Sys2Proof.Machine
end

section
/-! PROOFS. What DISPATCH reads and writes (spec/47_rx_dispatch.md R290): it works in the table, the
transmit path and APP's answers, and neither sees nor touches the rest of the machine. So it has the
same effect inside RX_POLL as issued alone (R279). -/

namespace Sys2Proof.Machine

/-- `q` with the fields DISPATCH works in, and those it only reads, taken from `s`. -/
def State.onto (s q : State) : State :=
  { q with
    cfg := s.cfg
    tab := s.tab
    encPos := s.encPos
    encCur := s.encCur
    sum := s.sum
    txBuf := s.txBuf
    txLine := s.txLine
    apps := s.apps
    fresh := s.fresh }

@[simp] theorem State.onto_cfg (s q : State) : (s.onto q).cfg = s.cfg := rfl

@[simp] theorem State.onto_tab (s q : State) : (s.onto q).tab = s.tab := rfl

@[simp] theorem State.onto_apps (s q : State) : (s.onto q).apps = s.apps := rfl

/-! The transmit path. -/

theorem transmit_onto (bs : List Byte) (s q : State) :
    transmit bs (s.onto q) = (transmit bs s).map (·.onto q) id := by
  unfold transmit
  rw [State.onto_cfg]
  cases slipEncode s.cfg.txCap bs <;> rfl

theorem sendPacket_onto (src dst : IP4) (protocol : Byte) (m : Built) (s q : State) :
    sendPacket src dst protocol m (s.onto q) =
      (sendPacket src dst protocol m s).map (·.onto q) id := by
  simp only [sendPacket, State.onto_cfg]
  cases ipBuildBytes s.cfg src dst protocol m.bytes s.cfg.pktCap with
  | ok packet => exact transmit_onto packet.bytes { s with sum := packet.sum } q
  | error st => rfl

theorem echoReply_onto (src dst : IP4) (identifier sequence : U16) (payload : List Byte)
    (s q : State) :
    echoReply src dst identifier sequence payload (s.onto q) =
      (echoReply src dst identifier sequence payload s).map (·.onto q) id := by
  unfold echoReply
  rw [State.onto_cfg]
  cases icmpBuildBytes icmpTypeEchoReply identifier sequence payload s.cfg.segCap with
  | ok m => exact sendPacket_onto _ _ _ m s q
  | error st => rfl

theorem sendSeg_onto (d : SegDesc) (s q : State) :
    sendSeg d (s.onto q) = (sendSeg d s).map (·.onto q) id := by
  unfold sendSeg
  rw [State.onto_cfg]
  cases tcpBuildBytes d s.cfg.segCap with
  | ok seg => exact sendPacket_onto _ _ _ seg s q
  | error st => rfl

theorem sendAll_onto (ds : List SegDesc) (s q : State) :
    sendAll ds (s.onto q) = (sendAll ds s).onto q := by
  induction ds generalizing s with
  | nil => rfl
  | cons d ds ih =>
    rw [sendAll, sendSeg_onto]
    exact ih _

/-! The branches. -/

theorem State.nextApp_onto (s q : State) (sip dip : IP4) (hdr : TcpHdr) (p : List Byte) :
    (s.onto q).nextApp sip dip hdr p = (s.nextApp sip dip hdr p).map id (·.onto q) := by
  rcases s.nextApp_cases sip dip hdr p with ⟨a, as, happs, h⟩ | ⟨happs, h⟩ <;>
    rw [h, State.nextApp, State.onto_apps, happs] <;> rfl

theorem echoRequestAction_onto (src dst : IP4) (identifier sequence : U16) (payload : List Byte)
    (s q : State) :
    echoRequestAction src dst identifier sequence payload (s.onto q) =
      (echoRequestAction src dst identifier sequence payload s).map id (·.onto q) := by
  unfold echoRequestAction
  rw [echoReply_onto]
  rcases echoReply src dst identifier sequence payload s with ⟨w, st | n⟩ <;> rfl

theorem icmpBranch_onto (src dst : IP4) (p : List Byte) (s q : State) :
    icmpBranch src dst p (s.onto q) = (icmpBranch src dst p s).map id (·.onto q) := by
  unfold icmpBranch
  split
  · rfl
  · split
    · exact echoRequestAction_onto _ _ _ _ _ s q
    · split <;> rfl

theorem udpBranch_onto (src dst : IP4) (p : List Byte) (s q : State) :
    udpBranch src dst p (s.onto q) = (udpBranch src dst p s).map id (·.onto q) := by
  unfold udpBranch
  split <;> rfl

theorem tcpBranch_onto (src dst : IP4) (p : List Byte) (s q : State) :
    tcpBranch src dst p (s.onto q) = (tcpBranch src dst p s).map id (·.onto q) := by
  unfold tcpBranch
  split
  · rfl
  · rename_i hdr sl _
    rw [State.nextApp_onto]
    rcases s.nextApp src dst hdr (sliceBytes p sl) with ⟨app, u⟩
    simp only [Prod.map, id, State.onto_cfg, State.onto_tab]
    rcases segInTable u.cfg src dst hdr sl.length app u.tab with ⟨tab, st | o⟩
    · rfl
    · exact congrArg (Prod.mk _) (sendAll_onto o.tx { u with tab := tab } q)

theorem dispatchFrame_onto (frame : List Byte) (s q : State) :
    dispatchFrame frame (s.onto q) = (dispatchFrame frame s).map id (·.onto q) := by
  unfold dispatchFrame
  rw [State.onto_cfg]
  split
  · rfl
  · split
    · exact icmpBranch_onto _ _ _ s q
    · split
      · exact udpBranch_onto _ _ _ s q
      · split
        · exact tcpBranch_onto _ _ _ s q
        · rfl

/-! How DISPATCH ends. -/

theorem exec_dispatch_idle {frame : List Byte} {s : State} (hs : s.rxs = .done) :
    exec (.dispatch frame) s = .next (finishVerdict (dispatchFrame frame s)) :=
  State.issue_idle hs _

@[simp] theorem finishVerdict_result (r : Verdict × State) :
    (finishVerdict r).result = .verdict r.1 := by
  unfold finishVerdict
  split <;> rfl

@[simp] theorem finishVerdict_apps (r : Verdict × State) : (finishVerdict r).apps = r.2.apps := by
  unfold finishVerdict
  split <;> rfl

end Sys2Proof.Machine
end

section
/-! PROOFS. The receive sequencer (spec/47_rx_dispatch.md R270 to R279): each step is one check, the
lists of inputs say which; the decode attempt has one outcome for every event of SLIP_DEC's scan. A
frame's reception is a run of polls that complete no frame and one that does. -/

namespace Sys2Proof.Machine

/-- Settles O32. -/
theorem rxPollEnters : Obligations.RxPollEnters := fun _ _ hs =>
  ⟨_, _, State.issue_idle hs _⟩

section
variable {s : State}

theorem step_pollKey (hs : s.rxs = .pollKey) : step s = .next (rxKeyCheck s) := by
  simp only [step, rxIterate, hs]

theorem step_pollRx (hs : s.rxs = .pollRx) : step s = .next (rxLineCheck s) := by
  simp only [step, rxIterate, hs]

/-! The key check (R272, R276). -/

theorem State.nextKey_listed {k : Key} {ks : List Key} (h : s.keys = k :: ks) :
    s.nextKey = (k, { s with keys := ks }) := by
  rw [State.nextKey, h]

theorem State.nextKey_free (h : s.keys = []) :
    s.nextKey = (Config.freeKey s.fresh, { s with fresh := s.fresh + 1 }) := by
  rw [State.nextKey, h]

theorem rxKeyCheck_none {u : State} (h : s.nextKey = (.none, u)) :
    rxKeyCheck s = { u with rxs := .pollRx } := by
  rw [rxKeyCheck, h]

theorem rxKeyCheck_other {u : State} (h : s.nextKey = (.other, u)) : rxKeyCheck s = u := by
  rw [rxKeyCheck, h]

theorem rxKeyCheck_cancel {u : State} (h : s.nextKey = (.cancel, u)) :
    ∃ n r f, rxKeyCheck s = { u with
      rxs := .done, acc := [], frame := [], status := .interrupted, count := n, result := r,
      fresh := f } := by
  rw [rxKeyCheck, h]
  exact ⟨_, _, _, rfl⟩

end

/-- Settles O33: each answer, listed or free. -/
theorem rxKeyCheckResult : Obligations.RxKeyCheck := by
  intro s hs
  rw [step_pollKey hs]
  refine ⟨fun ks hk => ?_, fun ks hk => ?_, fun ks hk => ?_, fun hk => ?_⟩
  · rw [rxKeyCheck_none (State.nextKey_listed hk)]
  · rw [rxKeyCheck_other (State.nextKey_listed hk)]
  · obtain ⟨n, r, f, h⟩ := rxKeyCheck_cancel (State.nextKey_listed hk)
    exact ⟨n, r, f, [], [], congrArg _ h⟩
  · have hfree := State.nextKey_free hk
    cases hkey : Config.freeKey s.fresh <;> rw [hkey] at hfree
    case none =>
      rw [rxKeyCheck_none hfree]
      exact .inl ⟨_, rfl⟩
    case other =>
      rw [rxKeyCheck_other hfree]
      exact .inr (.inl ⟨_, rfl⟩)
    case cancel =>
      obtain ⟨n, r, f, h⟩ := rxKeyCheck_cancel hfree
      exact .inr (.inr ⟨n, r, f, [], [], congrArg _ h⟩)

/-! The decode attempt (R274, R278). -/

section
variable {s : State} {l : List Byte} {d : Dec} {ev : DecEvent}

theorem rxDecodeError_hold (h : s.cfg.rxErrPolicy = .hold) : rxDecodeError s = s := by
  rw [rxDecodeError, h]

theorem rxDecodeError_flush (h : s.cfg.rxErrPolicy = .flush) :
    rxDecodeError s = { s with accLen := 0 } := by
  rw [rxDecodeError, h]

variable (hacc : s.accHolds l)
include hacc

theorem rxAttempt_frame {n : Nat} (hd : slipDecode s.cfg.frameCap l = (d, .frame n)) :
    rxAttempt s =
      rxDeliver n { s with esc := d.esc, pos := d.pos, cur := d.cur, frame := d.out } := by
  rw [rxAttempt, State.accHolds_scan hacc, hd]
  rfl

theorem rxAttempt_more (hd : slipDecode s.cfg.frameCap l = (d, .more)) :
    rxAttempt s = { s with esc := d.esc, pos := d.pos, cur := d.cur, frame := [] } := by
  rw [rxAttempt, State.accHolds_scan hacc, hd]
  rfl

theorem rxAttempt_error (hd : slipDecode s.cfg.frameCap l = (d, ev))
    (hev : ev = .badEscape ∨ ev = .overflow) :
    rxAttempt s =
      rxDecodeError { s with esc := d.esc, pos := d.pos, cur := d.cur, frame := [] } := by
  rw [rxAttempt, State.accHolds_scan hacc, hd]
  rcases hev with rfl | rfl <;> rfl

/-- An unfinished frame, and a decode error under `hold`, leave the accumulation as it is. -/
theorem rxAttempt_keeps (hd : slipDecode s.cfg.frameCap l = (d, ev))
    (hev : ev = .more ∨ s.cfg.rxErrPolicy = .hold ∧ (ev = .badEscape ∨ ev = .overflow)) :
    rxAttempt s = { s with esc := d.esc, pos := d.pos, cur := d.cur, frame := [] } := by
  rcases hev with rfl | ⟨hpolicy, hev⟩
  · exact rxAttempt_more hacc hd
  · exact (rxAttempt_error hacc hd hev).trans (rxDecodeError_hold hpolicy)

theorem rxAttempt_flushes (hd : slipDecode s.cfg.frameCap l = (d, ev))
    (hpolicy : s.cfg.rxErrPolicy = .flush) (hev : ev = .badEscape ∨ ev = .overflow) :
    rxAttempt s =
      { s with esc := d.esc, pos := d.pos, cur := d.cur, frame := [], accLen := 0 } :=
  (rxAttempt_error hacc hd hev).trans (rxDecodeError_flush hpolicy)

end

/-! The transport check (R273, R275, R277). -/

section
variable {s : State} {b : Byte} {bs l : List Byte} {rs : List Bool}

theorem rxLineCheck_notReady (h : s.readys = false :: rs) :
    rxLineCheck s = { s with rxs := .pollKey, readys := rs } := by
  simp only [rxLineCheck, State.nextReady, h]

theorem rxLineCheck_reads (hr : s.readys = true :: rs) (hb : s.rxLine = b :: bs) :
    rxLineCheck s =
      rxAttempt (accumulate b { s with rxs := .pollKey, readys := rs, rxLine := bs }) := by
  simp only [rxLineCheck, State.nextReady, State.nextByte, hr, hb]

/-- Only ACC and its fill count change. -/
theorem accumulate_eq {n : Nat} (h : (accumulate b s).accLen = n) :
    accumulate b s = { s with acc := (accumulate b s).acc, accLen := n } := by
  subst h
  unfold accumulate
  split <;> rfl

/-- The byte read is in the accumulation, unless ACC was full, when the decode attempt is made. -/
theorem rxLineCheck_attempts {l' : List Byte} (hacc : s.accHolds l) (hr : s.readys = true :: rs)
    (hb : s.rxLine = b :: bs) (hl' : l' = if l.length < s.cfg.accCap then l ++ [b] else l) :
    ∃ u a, u = { s with
        rxs := .pollKey, readys := rs, rxLine := bs, acc := a, accLen := l'.length } ∧
      u.accHolds l' ∧ rxLineCheck s = rxAttempt u := by
  have happended := State.accHolds_accumulate
    (s := { s with rxs := .pollKey, readys := rs, rxLine := bs }) b hacc
  rw [← hl'] at happended
  exact ⟨_, _, accumulate_eq happended.1, happended, rxLineCheck_reads hr hb⟩

/-- With no answer of ready() listed the check is that of a no or of a yes. -/
theorem rxLineCheck_freeReady (h : s.readys = []) :
    (∃ f, rxLineCheck s = { s with rxs := .pollKey, fresh := f }) ∨
      (∃ f, rxLineCheck s = rxLineCheck { s with readys := [true], fresh := f }) := by
  have hsame : s = { s with readys := [] } := by rw [← h]
  rw [hsame]
  cases hready : Config.freeReady s.fresh
  · refine .inl ⟨s.fresh + 1, ?_⟩
    simp only [rxLineCheck, State.nextReady, hready]
  · refine .inr ⟨s.fresh + 1, ?_⟩
    simp only [rxLineCheck, State.nextReady, hready]

/-- With no byte listed the check is that of some byte. -/
theorem rxLineCheck_freeByte (hr : s.readys = true :: rs) (h : s.rxLine = []) :
    ∃ b f, rxLineCheck s = rxLineCheck { s with rxLine := [b], fresh := f } := by
  have hsame : s = { s with rxLine := [] } := by rw [← h]
  refine ⟨Config.lineByte s.fresh, s.fresh + 1, ?_⟩
  rw [hsame]
  simp only [rxLineCheck, State.nextReady, State.nextByte, hr]

end

/-- Settles O34: the answer of ready(), then the event of the decode attempt. -/
theorem rxReadsByte : Obligations.RxReadsByte := by
  intro s l hs hacc
  have hstep {u : State} (hu : u.rxs = .pollRx) (h : rxLineCheck s = rxLineCheck u) :
      step s = step u := by
    rw [step_pollRx hs, step_pollRx hu, h]
  refine ⟨fun rs hr => ?_, fun rs b bs l' d ev hr hb hl' hd => ?_, fun hr => ?_, fun rs hr hb => ?_⟩
  · rw [step_pollRx hs, rxLineCheck_notReady hr]
  · obtain ⟨_, a, rfl, hu, hcheck⟩ := rxLineCheck_attempts hacc hr hb hl'
    rw [step_pollRx hs, hcheck]
    refine ⟨fun hev => ?_, fun hpolicy hev => ?_⟩
    · rw [rxAttempt_keeps hu hd hev]
      exact ⟨_, _, _, _, a, hu.2, rfl⟩
    · rw [rxAttempt_flushes hu hd hpolicy hev]
      exact ⟨_, _, _, _, a, rfl⟩
  · rw [step_pollRx hs]
    obtain ⟨f, hno⟩ | ⟨f, hyes⟩ := rxLineCheck_freeReady hr
    · exact .inl ⟨f, congrArg _ hno⟩
    · exact .inr ⟨f, (step_pollRx hs).symm.trans (hstep hs hyes)⟩
  · obtain ⟨b, f, h⟩ := rxLineCheck_freeByte hr hb
    exact ⟨b, f, hstep hs h⟩

/-! Delivery (R279). -/

section
variable {s : State} {f : List Byte} (hf : s.frame = Memory.ofBytes f)
include hf

theorem rxDeliver_identity (hh : s.handler = .identity) :
    rxDeliver f.length s = (rxLeave s).complete f.length (.handled (.identity f)) := by
  simp only [rxDeliver, hf, hh, Memory.bytes_ofBytes]

/-- DISPATCH runs as it does in any `u` that agrees with `s` on the fields it works in. -/
theorem rxDeliver_dispatch {u : State} (hh : s.handler = .dispatch) (hu : u.onto s = s) :
    rxDeliver f.length s = (rxLeave ((dispatchFrame f u).2.onto s)).complete f.length
      (.handled (.dispatch (dispatchFrame f u).1)) := by
  have hframe := dispatchFrame_onto f u s
  rw [hu] at hframe
  simp only [rxDeliver, hf, hh, Memory.bytes_ofBytes, hframe]
  rfl

theorem rxDeliver_host {h : Byte} (hh : s.handler = .host h) :
    rxDeliver f.length s = { rxLeave s with
      port := (Config.hostCommands h f s.fresh).map PortItem.command ++
        (.handlerReturn f.length (Config.hostResult h f s.fresh) :: s.port)
      fresh := s.fresh + 1 } := by
  simp only [rxDeliver, hf, hh, Memory.bytes_ofBytes]

end

/-- The byte that completes a frame: the attempt finds the delimiters, the stuffed body and the
terminator, and delivers the body. -/
theorem rxLineCheck_delivers {s : State} {k : Nat} {l b bs : List Byte} {x : Byte} {rs : List Bool}
    (hacc : s.accHolds l) (hroom : l.length < s.cfg.accCap) (hr : s.readys = true :: rs)
    (hb : s.rxLine = x :: bs) (hline : l ++ [x] = delims k ++ stuffed b ++ [0xC0#8]) (hne : b ≠ [])
    (hc : b.length ≤ s.cfg.frameCap) :
    ∃ e p c m a, rxLineCheck s = rxDeliver b.length { s with
      rxs := .pollKey, readys := rs, rxLine := bs, acc := a, accLen := m,
      frame := Memory.ofBytes b, esc := e, pos := p, cur := c } := by
  obtain ⟨_, a, rfl, hu, hcheck⟩ := rxLineCheck_attempts hacc hr hb (if_pos hroom).symm
  have hd := slipDecode_frame k hne hc []
  rw [← hline] at hd
  rw [hcheck, rxAttempt_frame hu hd]
  exact ⟨_, _, _, _, a, rfl⟩

/-- Settles O35: one clause a handler. -/
theorem rxDelivers : Obligations.RxDelivers := by
  intro s k l b x rs bs hs hacc hroom hr hb hline hne hc
  obtain ⟨e, p, c, m, a, hcheck⟩ := rxLineCheck_delivers hacc hroom hr hb hline hne hc
  rw [step_pollRx hs]
  refine ⟨fun hh => ?_, fun hh => ?_, fun h hh => ?_⟩
  · rw [hcheck.trans (rxDeliver_identity rfl hh)]
    exact ⟨_, _, _, _, _, _, rfl⟩
  · generalize halone : ({ s with rxs := .done, readys := rs, rxLine := bs } : State) = alone
    rw [hcheck.trans (rxDeliver_dispatch (u := alone) rfl hh (by rw [← halone]; rfl))]
    have hwrites := finishVerdict_silent (dispatchFrame b alone)
    exact ⟨_, _, _, rfl, exec_dispatch_idle (by rw [← halone]),
      finishVerdict_result _, rfl, rfl, rfl, rfl, hwrites.tab.symm, hwrites.txLine.symm,
      (finishVerdict_apps _).symm, rfl, rfl, rfl, rfl,
      (dispatchFrame_preserves b alone).cfg.trans (by rw [← halone]), rfl⟩
  · rw [hcheck.trans (rxDeliver_host rfl hh)]
    exact ⟨_, _, _, _, _, _, _, _, _, rfl⟩

/-! Reception (R270, R275, R362). -/

theorem stepN_add {m : Nat} (n : Nat) {s t : State} (h : stepN m s = .next t) :
    stepN (m + n) s = stepN n t := by
  induction m generalizing s with
  | zero =>
    cases h
    rw [Nat.zero_add]
  | succ m ih =>
    rw [Nat.succ_add]
    simp only [stepN] at h ⊢
    split at h
    · exact ih h
    · cases h
    · cases h

/-- A poll without a key is two steps: the key check, then the transport check. -/
theorem stepN_poll {s : State} {ks : List Key} (hs : s.rxs = .pollKey)
    (hk : s.keys = .none :: ks) :
    stepN 2 s = step { s with rxs := .pollRx, keys := ks } := by
  simp only [stepN, step_pollKey hs, rxKeyCheck_none (State.nextKey_listed hk)]
  cases step { s with rxs := .pollRx, keys := ks } <;> rfl

/-- `t` is `s` but for the listed inputs and the registers of the sequencer and the decoder, which
polling uses. -/
def State.sameButPolling (s t : State) : Prop :=
  ∃ (r : RxState) (ks : List Key) (rs : List Bool) (bs : List Byte) (a f : Memory) (e : Bool)
    (m p c : Nat), t = { s with
      rxs := r, keys := ks, readys := rs, rxLine := bs, acc := a, accLen := m, frame := f, esc := e,
      pos := p, cur := c }

theorem State.sameButPolling.refl (s : State) : s.sameButPolling s :=
  ⟨_, _, _, _, _, _, _, _, _, _, rfl⟩

theorem State.sameButPolling.trans {s t u : State} (h : s.sameButPolling t)
    (h' : t.sameButPolling u) : s.sameButPolling u := by
  obtain ⟨_, _, _, _, _, _, _, _, _, _, rfl⟩ := h
  obtain ⟨_, _, _, _, _, _, _, _, _, _, rfl⟩ := h'
  exact ⟨_, _, _, _, _, _, _, _, _, _, rfl⟩

theorem State.sameButPolling.cfg {s t : State} (h : s.sameButPolling t) : t.cfg = s.cfg := by
  obtain ⟨_, _, _, _, _, _, _, _, _, _, rfl⟩ := h
  rfl

theorem State.sameButPolling.handler {s t : State} (h : s.sameButPolling t) :
    t.handler = s.handler := by
  obtain ⟨_, _, _, _, _, _, _, _, _, _, rfl⟩ := h
  rfl

/-- With `l` accumulated, the machine is about to poll once for each answer of `rd`, no key pressed,
and to read the bytes `p`, which complete no frame; the inputs `bs`, `rs` and `ks` come after. -/
structure State.Accumulates (s : State) (l p bs : List Byte) (rd rs : List Bool) (ks : List Key) :
    Prop where
  rxs : s.rxs = .pollKey
  held : s.accHolds l
  keys : s.keys = List.replicate rd.length .none ++ ks
  readys : s.readys = rd ++ rs
  line : s.rxLine = p ++ bs
  count : rd.count true = p.length
  room : l.length + p.length ≤ s.cfg.accCap
  unfinished : (slipDecode s.cfg.frameCap (l ++ p)).2 = .more

/-- What completes no frame has no beginning that does. -/
theorem slipDecode_more_of_append {cap : Nat} {p q : List Byte}
    (h : (slipDecode cap (p ++ q)).2 = .more) : ∃ d, slipDecode cap p = (d, .more) := by
  refine ⟨_, Prod.ext rfl ?_⟩
  by_contra hended
  rw [slipDecode_append_ended q hended] at h
  exact hended h

section
variable {s : State} {l p bs : List Byte} {rd rs : List Bool} {ks : List Key}

/-- A poll that finds no byte ready. -/
theorem State.Accumulates.poll_notReady (h : s.Accumulates l p bs (false :: rd) rs ks) :
    ∃ t, stepN 2 s = .next t ∧ t.Accumulates l p bs rd rs ks ∧ s.sameButPolling t := by
  refine ⟨{ s with
    rxs := .pollKey, keys := List.replicate rd.length .none ++ ks, readys := rd ++ rs }, ?_,
    ⟨rfl, h.held, rfl, rfl, h.line, ?_, h.room, h.unfinished⟩,
    ⟨_, _, _, _, _, _, _, _, _, _, rfl⟩⟩
  · rw [stepN_poll h.rxs h.keys, step_pollRx rfl]
    exact congrArg _ (rxLineCheck_notReady h.readys)
  · simpa using h.count

/-- A poll that reads a byte. -/
theorem State.Accumulates.poll_ready {x : Byte}
    (h : s.Accumulates l (x :: p) bs (true :: rd) rs ks) :
    ∃ t, stepN 2 s = .next t ∧ t.Accumulates (l ++ [x]) p bs rd rs ks ∧ s.sameButPolling t := by
  have hroom := h.room
  have hall := h.unfinished
  rw [List.length_cons] at hroom
  rw [List.append_cons] at hall
  obtain ⟨_, a, rfl, hu, hcheck⟩ := rxLineCheck_attempts
    (s := { s with rxs := .pollRx, keys := List.replicate rd.length .none ++ ks }) h.held h.readys
    h.line (if_pos (show l.length < s.cfg.accCap by omega)).symm
  obtain ⟨d, hd⟩ := slipDecode_more_of_append hall
  have hstep := hcheck.trans (rxAttempt_more hu hd)
  refine ⟨_, (stepN_poll h.rxs h.keys).trans ((step_pollRx rfl).trans (congrArg _ hstep)),
    ⟨rfl, hu, rfl, rfl, rfl, ?_, ?_, hall⟩, ⟨_, _, _, _, _, _, _, _, _, _, rfl⟩⟩
  · simpa using h.count
  · rw [List.length_append]
    change l.length + 1 + p.length ≤ s.cfg.accCap
    omega

end

/-- The polls leave the bytes accumulated and the inputs behind them to come. -/
theorem State.Accumulates.run {s : State} {l p bs : List Byte} {rd rs : List Bool} {ks : List Key}
    (h : s.Accumulates l p bs rd rs ks) :
    ∃ t, stepN (2 * rd.length) s = .next t ∧ t.Accumulates (l ++ p) [] bs [] rs ks ∧
      s.sameButPolling t := by
  induction rd generalizing s l p with
  | nil =>
    obtain rfl : p = [] := List.length_eq_zero_iff.mp h.count.symm
    rw [List.append_nil]
    exact ⟨s, rfl, h, .refl s⟩
  | cons r rd ih =>
    have hpoll : ∃ t l' p', l' ++ p' = l ++ p ∧ stepN 2 s = .next t ∧
        t.Accumulates l' p' bs rd rs ks ∧ s.sameButPolling t := by
      cases r with
      | false =>
        obtain ⟨t, hstep, ht⟩ := h.poll_notReady
        exact ⟨t, l, p, rfl, hstep, ht⟩
      | true =>
        cases p with
        | nil => simpa using h.count
        | cons x p =>
          obtain ⟨t, hstep, ht⟩ := h.poll_ready
          exact ⟨t, l ++ [x], p, (List.append_cons l x p).symm, hstep, ht⟩
    obtain ⟨t, l', p', happend, hstep, ht, hsame⟩ := hpoll
    obtain ⟨u, hrun, hu, hsame'⟩ := ih ht
    rw [happend] at hu
    refine ⟨u, ?_, hu, hsame.trans hsame'⟩
    rw [List.length_cons, Nat.mul_succ, Nat.add_comm, stepN_add _ hstep, hrun]

/-- RX_POLL starts with no accumulated byte (R271). -/
theorem rxEnter_accumulates {s : State} {p bs : List Byte} {rd rs : List Bool} {ks : List Key}
    (h : Handler) (hkeys : s.keys = List.replicate rd.length .none ++ ks)
    (hready : s.readys = rd ++ rs) (hline : s.rxLine = p ++ bs) (hcount : rd.count true = p.length)
    (hroom : p.length ≤ s.cfg.accCap) (hmore : (slipDecode s.cfg.frameCap p).2 = .more) :
    (rxEnter h s).Accumulates [] p bs rd rs ks :=
  ⟨rfl, ⟨rfl, Memory.holds_nil _⟩, hkeys, hready, hline, hcount, (Nat.zero_add _).trans_le hroom,
    hmore⟩

/-- Settles O36: the polls that read the delimiters and the stuffed body complete no frame, and the
one that reads the terminator delivers the body. -/
theorem rxFrameRun : Obligations.RxFrameRun := by
  intro s k b bs rd rs ks hs hne hc hroom hline hready hcount hkeys
  have hlen : (delims k ++ stuffed b).length = k + (stuffed b).length := by simp [delims]
  have hkeys' : s.keys = List.replicate rd.length .none ++ .none :: ks := by
    simpa [List.replicate_succ'] using hkeys
  obtain ⟨t, hrun, ht, hsame⟩ := (rxEnter_accumulates .identity hkeys' hready hline
    (hcount.trans hlen.symm) (by omega) (congrArg Prod.snd (slipDecode_body k hc))).run
  have hcfg : t.cfg = s.cfg := hsame.cfg
  have hroom' : (delims k ++ stuffed b).length < t.cfg.accCap := by
    rw [hlen, hcfg]
    omega
  obtain ⟨e, p, c, m, a, f, hlast⟩ := (rxDelivers { t with rxs := .pollRx, keys := ks } k
    (delims k ++ stuffed b) b 0xC0#8 rs bs rfl ht.held hroom' ht.readys ht.line rfl hne
    (by rwa [hcfg])).1 hsame.handler
  obtain ⟨_, _, _, _, _, _, _, _, _, _, rfl⟩ := hsame
  rw [Nat.mul_succ]
  exact ⟨_, _, State.issue_idle hs _,
    (stepN_add 2 hrun).trans ((stepN_poll ht.rxs ht.keys).trans hlast), e, p, c, m, a, f, rfl⟩

end Sys2Proof.Machine
end

section
/-! PROOFS. Reset and the hazards (spec/70_reset_and_hazards.md R340 to R357). What a held receiver
has accumulated decides every later decode attempt, so reading on cannot free it. A record in the
closing set is gone when TCP_SEG_IN looks for it, so its 4-tuple is free again. -/

namespace Sys2Proof.Machine

/-! Operation boundaries (R340 to R342). -/

section
variable {s : State} (hs : s.rxs = .done)
include hs

theorem step_idle (hp : s.port = []) : step s = .next s := by
  simp only [step, hs, hp]

theorem step_item {item : PortItem} {rest : List PortItem} (hp : s.port = item :: rest) :
    step s = stepItem item rest s := by
  simp only [step, hs, hp]

theorem stepItem_reset (rest : List PortItem) :
    stepItem .reset rest s = .next ({ s with port := rest } : State).cleared :=
  if_pos hs

end

/-- Settles O50: one clause for each thing the port can hold at a boundary but a command. -/
theorem boundarySteps : Obligations.BoundarySteps := by
  intro s hs
  refine ⟨step_idle hs, fun rest hp => ?_, fun rest n r hp => step_item hs hp⟩
  rw [step_item hs hp, stepItem_reset hs]
  exact ⟨_, _, _, _, rfl⟩

/-! A held receiver (R352, R357). -/

/-- With `l` accumulated no decode attempt completes a frame, now or after more bytes are read: the
attempt fails under `hold`, or ACC is full and the frame unfinished. The second conjunct of
`State.rxHeld`, on its own. -/
def neverCompletes (cfg : Config.Params) (l : List Byte) : Prop :=
  (cfg.rxErrPolicy = .hold ∧
      ((slipDecode cfg.frameCap l).2 = .badEscape ∨ (slipDecode cfg.frameCap l).2 = .overflow)) ∨
    (cfg.accCap ≤ l.length ∧ (slipDecode cfg.frameCap l).2 = .more)

theorem State.rxHeld_iff (s : State) :
    s.rxHeld ↔ s.rxs ≠ .done ∧ ∃ l, s.accHolds l ∧ neverCompletes s.cfg l := Iff.rfl

/-- One byte more changes nothing: a failed scan does not see it, a full ACC does not take it. -/
theorem neverCompletes.accumulate {cfg : Config.Params} {l : List Byte} (b : Byte)
    (h : neverCompletes cfg l) :
    neverCompletes cfg (if l.length < cfg.accCap then l ++ [b] else l) := by
  split
  case isFalse => exact h
  case isTrue hroom =>
    obtain ⟨hpolicy, herror⟩ | ⟨hfull, -⟩ := h
    · have hended : (slipDecode cfg.frameCap l).2 ≠ .more := by
        rcases herror with h | h <;> simp [h]
      refine .inl ⟨hpolicy, ?_⟩
      rwa [slipDecode_append_ended [b] hended]
    · omega

/-- So a decode attempt leaves the accumulation as it is. -/
theorem neverCompletes.rxAttempt_eq {s : State} {l : List Byte} (hacc : s.accHolds l)
    (h : neverCompletes s.cfg l) :
    ∃ e p c, rxAttempt s = { s with esc := e, pos := p, cur := c, frame := [] } := by
  refine ⟨_, _, _, rxAttempt_keeps hacc rfl ?_⟩
  obtain herror | ⟨-, hmore⟩ := h
  · exact .inr herror
  · exact .inl hmore

/-- A key check asks the list or the environment, and changes nothing else. -/
theorem State.nextKey_eq (s : State) :
    ∃ k ks f, s.nextKey = (k, { s with keys := ks, fresh := f }) := by
  obtain ⟨k, ks, -, h⟩ | ⟨-, h⟩ := s.nextKey_cases
  · exact ⟨k, ks, s.fresh, h⟩
  · exact ⟨_, s.keys, _, h⟩

theorem State.nextReady_eq (s : State) :
    ∃ r rs f, s.nextReady = (r, { s with readys := rs, fresh := f }) := by
  obtain ⟨r, rs, -, h⟩ | ⟨-, h⟩ := s.nextReady_cases
  · exact ⟨r, rs, s.fresh, h⟩
  · exact ⟨_, s.readys, _, h⟩

theorem State.nextByte_eq (s : State) :
    ∃ b bs f, s.nextByte = (b, { s with rxLine := bs, fresh := f }) := by
  obtain ⟨b, bs, -, h⟩ | ⟨-, h⟩ := s.nextByte_cases
  · exact ⟨b, bs, s.fresh, h⟩
  · exact ⟨_, s.rxLine, _, h⟩

/-- A transport check, whatever the environment answers: no byte, or a decode attempt with one more
byte read (R273, R275, R277). -/
theorem rxLineCheck_cases {s : State} {l : List Byte} (hacc : s.accHolds l) :
    (∃ rs f, rxLineCheck s = { s with rxs := .pollKey, readys := rs, fresh := f }) ∨
      (∃ b l' u rs bs f a, l' = (if l.length < s.cfg.accCap then l ++ [b] else l) ∧ u = { s with
          rxs := .pollKey, readys := rs, rxLine := bs, fresh := f, acc := a, accLen := l'.length } ∧
        u.accHolds l' ∧ rxLineCheck s = rxAttempt u) := by
  obtain ⟨r, rs, f, hready⟩ := ({ s with rxs := .pollKey } : State).nextReady_eq
  rw [rxLineCheck, hready]
  cases r with
  | false => exact .inl ⟨rs, f, rfl⟩
  | true =>
    obtain ⟨b, bs, f', hbyte⟩ :=
      ({ s with rxs := .pollKey, readys := rs, fresh := f } : State).nextByte_eq
    have happended := State.accHolds_accumulate
      (s := { s with rxs := .pollKey, readys := rs, rxLine := bs, fresh := f' }) b hacc
    exact .inr ⟨b, _, _, rs, bs, f', _, rfl, accumulate_eq happended.1, happended,
      by simp only [hbyte]⟩

/-- What a step of a held receiver leaves: the line and the table as they were, and a receiver that
is held or was cancelled. -/
structure State.StaysHeld (s t : State) : Prop where
  txLine : t.txLine = s.txLine
  tab : t.tab = s.tab
  held : t.rxHeld ∨ (t.rxs = .done ∧ t.status = .interrupted)

theorem rxKeyCheck_staysHeld {s : State} (h : s.rxHeld) : s.StaysHeld (rxKeyCheck s) := by
  obtain ⟨hpolling, hl⟩ := s.rxHeld_iff.mp h
  obtain ⟨k, ks, f, hkey⟩ := s.nextKey_eq
  cases k with
  | none =>
    rw [rxKeyCheck_none hkey]
    exact ⟨rfl, rfl, .inl ⟨nofun, hl⟩⟩
  | other =>
    rw [rxKeyCheck_other hkey]
    exact ⟨rfl, rfl, .inl ⟨hpolling, hl⟩⟩
  | cancel =>
    obtain ⟨n, r, f', hcancel⟩ := rxKeyCheck_cancel hkey
    rw [hcancel]
    exact ⟨rfl, rfl, .inr ⟨rfl, rfl⟩⟩

theorem rxLineCheck_staysHeld {s : State} (h : s.rxHeld) : s.StaysHeld (rxLineCheck s) := by
  obtain ⟨-, l, hacc, hnever⟩ := s.rxHeld_iff.mp h
  obtain ⟨rs, f, hnoByte⟩ | ⟨b, _, _, rs, bs, f, a, rfl, rfl, hu, hread⟩ := rxLineCheck_cases hacc
  · rw [hnoByte]
    exact ⟨rfl, rfl, .inl ⟨nofun, l, hacc, hnever⟩⟩
  · have hnever' := hnever.accumulate b
    obtain ⟨e, p, c, hattempt⟩ := hnever'.rxAttempt_eq hu
    rw [hread, hattempt]
    exact ⟨rfl, rfl, .inl ⟨nofun, _, hu, hnever'⟩⟩

/-- Settles O37: one lemma for each check the loop can be at. -/
theorem rxStaysHeld : Obligations.RxStaysHeld := by
  intro s h
  have hstep : ∃ t, step s = .next t ∧ s.StaysHeld t := by
    cases hs : s.rxs with
    | pollKey => exact ⟨_, step_pollKey hs, rxKeyCheck_staysHeld h⟩
    | pollRx => exact ⟨_, step_pollRx hs, rxLineCheck_staysHeld h⟩
    | done => exact absurd hs h.1
  obtain ⟨t, ht, hline, htab, hheld⟩ := hstep
  exact ⟨t, ht, hline, htab, hheld⟩

/-! A connection in the closing set (R354, R229). -/

section
variable {tab : Table} {k : Nat} {r : Record} (hr : tab[k]? = some (some r))
  (hc : r.state.isClosing = true)
include hr hc

/-- Reclaim sets its slot EMPTY. -/
theorem reclaimed_of_closing : (reclaimed tab)[k]? = some none := by
  rw [← reclaim_eq, reclaim, List.getElem?_map, hr]
  exact congrArg some (if_pos hc)

/-- With unique keys reclaim leaves no record with its 4-tuple (R24). -/
theorem noMatch_reclaimed_of_closing (hu : tab.keysUnique) :
    Table.noMatch (reclaimed tab) r.srcIp r.dstIp r.srcPort r.dstPort := by
  rintro j q ⟨hq, hkey⟩
  rw [← reclaim_eq] at hq
  obtain ⟨hq, hopen⟩ := reclaim_getElem? hq
  obtain rfl : j = k := hu j k q r hq hr hkey
  obtain rfl : q = r := by simpa using hq.symm.trans hr
  simp [hc] at hopen

end

/-- With an EMPTY slot and no record of its 4-tuple, a SYN opens a connection (R231). -/
theorem exec_tcpSegIn_opens {sip dip : IP4} {hdr : TcpHdr} {s : State} {k : Nat} (plen : Nat)
    (app : List Byte) (hs : s.rxs = .done)
    (hno : Table.noMatch (reclaimed s.tab) sip dip hdr.srcPort hdr.dstPort)
    (hsyn : isSynOnly hdr.offFlags) (hfree : (reclaimed s.tab)[k]? = some none) :
    ∃ t slot, exec (.tcpSegIn sip dip hdr plen app) s = .next t ∧ t.status = .ok ∧
      t.result = .segIn slot 1 [synAckOf s.cfg sip dip hdr] ∧
      t.tab[slot]? = some (some (openedRecord s.cfg sip dip hdr)) := by
  cases hf : firstFree (reclaimed s.tab) 0 with
  | none => exact absurd rfl (firstFree_none.mp hf none (List.mem_of_getElem? hfree))
  | some slot =>
    obtain ⟨-, hslot, -⟩ := firstFree_some hf
    obtain ⟨hlt, -⟩ := List.getElem?_eq_some_iff.mp hslot
    exact ⟨_, slot, exec_tcpSegIn_ok plen app hs (segInTable_opens _ plen app hno hsyn hf), rfl,
      rfl, List.getElem?_set_self hlt⟩

/-- Settles O30: LastAck is in the closing set, so its 4-tuple has no record and its slot
is free. -/
theorem lastAckNeverMatched : Obligations.LastAckNeverMatched := by
  intro s k r hdr plen app hs hu hr hstate hsp hdp
  have hc : r.state.isClosing = true := by rw [hstate]; rfl
  have hfree := reclaimed_of_closing hr hc
  have hno := noMatch_reclaimed_of_closing hr hc hu
  rw [← hsp, ← hdp] at hno
  refine ⟨fun hack => ?_, fun hsyn => exec_tcpSegIn_opens plen app hs hno hsyn hfree⟩
  obtain ⟨_, n, w, _, hexec⟩ :=
    (segInDrops r.srcIp r.dstIp hdr plen app s hs hno).2 fun hsyn => hack hsyn.2
  exact ⟨_, n, w, hexec, rfl, rfl, rfl, hfree⟩

end Sys2Proof.Machine
end
